-- ==== Sys2Proof/Word.lean ====
section
/-! DEFINITION. The words of the urcontrol protocol engine: the widths of `spec/00_scope.md` R7 and R9. -/

namespace Sys2Proof

/-- A byte, 8 bits (`00_scope.md` R8). -/
abbrev Byte := BitVec 8

/-- A channel, `CH_W` = 7 bits (`00_scope.md` R7; `90_conflicts.md` C4). -/
abbrev Channel := BitVec 7

/-- A parameter address (`param`), `ADDR_W` = 14 bits (`00_scope.md` R7). -/
abbrev Addr := BitVec 14

/-- A value, `VALUE_W` = 32 bits: the pattern `bits32(v)` of an i32; `BitVec.toInt` reads it as the
i32 it is (`00_scope.md` R7, R9; log 17). -/
abbrev Value := BitVec 32

/-- A timeout budget or the timer, `TIMEOUT_W` = 32 bits, unsigned (`00_scope.md` R7). -/
abbrev Ticks := BitVec 32

/-- A frame: a finite sequence of bytes, byte 0 first (`00_scope.md` R8, `30_encoding.md` R70). -/
abbrev Frame := List Byte

/-- A key of the PendingReplyTable: `(channel, address)` (`00_scope.md` R12, `20_memory.md` R50). -/
abbrev Key := Channel × Addr

end Sys2Proof
end

