-- ==== Sys2Proof/Machine/State.lean ====
section
/-! DEFINITION. The state of the machine: the block state `S` of `10_state.md` R20, one field per row, and the
input vectors `I` of `00_scope.md` R11 that the coming edges sample. -/

namespace Sys2Proof.Machine

/-- The caller path's sequencing state (`10_state.md` R21). -/
inductive Fsm where
  | idle | send | wait | resp
deriving DecidableEq, Repr, Inhabited

/-- The operation of the command in progress (`10_state.md` R22, `30_encoding.md` R83). -/
inductive Op where
  | keepalive | change | query | setConfirm
deriving DecidableEq, Repr, Inhabited

/-- The frame being emitted (`10_state.md` R24). Encoding 3 is unreachable and is typed away, as
`10_state.md` R39 allows (log 8). -/
inductive FrameSel where
  | ka | chg | qry
deriving DecidableEq, Repr, Inhabited

/-- The result codes (`60_exceptions.md` R171). Codes 5..7 are unreachable and are typed away (R39, log 8). -/
inductive Status where
  | sent | value | timeout | confirmed | mismatch
deriving DecidableEq, Repr, Inhabited

/-- The kind of the last decoded frame (`41_session.md` R149). Codes 5..7 are typed away (R39, log 8). -/
inductive DecKind where
  | keepalive | change | query | reply | unknown
deriving DecidableEq, Repr, Inhabited

/-- The PendingReplyTable (`20_memory.md` R50): pairs of a key's number and its value, the numbers strictly
rising; a key that is not listed reads `none`. `Memory.wf` says the form (log 13). -/
abbrev Table := List (Nat × Value)

/-- The block state `S`: exactly the rows of `10_state.md` R20, under the spec's own names. -/
structure Block where
  /-- The caller path's sequencing state (R21). -/
  fsm : Fsm
  /-- Operation of the command in progress (R22). -/
  op : Op
  /-- Latched `cmd_addr` (R23). -/
  a : Addr
  /-- Latched `cmd_channel` (R23). -/
  c : Channel
  /-- Latched `cmd_value` (R23). -/
  v : Value
  /-- Latched `cmd_timeout` (R23). -/
  t : Ticks
  /-- The frame being emitted (R24). -/
  frame : FrameSel
  /-- Index of the next TX byte, u5 (R25). -/
  idx : BitVec 5
  /-- Ticks left in the timeout budget (R26). -/
  timer : Ticks
  /-- Result code of the last completed command (R27). -/
  status : Status
  /-- Result value of the last completed command (R27). -/
  rvalue : Value
  /-- The WakeSignal (R28). -/
  wake : Bool
  /-- The PendingReplyTable (R29). -/
  table : Table
  /-- The first bytes of the inbound frame in progress (R30). -/
  rx_buf : List Byte
  /-- Length of the inbound frame in progress, u5, saturating at 21 (R30). -/
  rx_len : BitVec 5
  /-- A frame was decoded at the previous edge (R31). -/
  dec_valid : Bool
  /-- Kind of the last decoded frame (R31). -/
  dec_kind : DecKind
  /-- Its channel, or 0 (R31). -/
  dec_channel : Channel
  /-- Its param, or 0 (R31). -/
  dec_param : Addr
  /-- Its value, or 0 (R31). -/
  dec_value : Value
deriving DecidableEq, Repr, Inhabited

/-- The input-port vector `I` sampled at one rising edge (`10_state.md` R35, `00_scope.md` R11). `clk` is the
edge itself. Nothing limits which vector follows which (log 22). -/
structure Inputs where
  rst : Bool
  tick : Bool
  cmd_valid : Bool
  cmd_op : BitVec 2
  cmd_addr : BitVec 14
  cmd_channel : BitVec 7
  cmd_value : BitVec 32
  cmd_timeout : BitVec 32
  rsp_ready : Bool
  tx_ready : Bool
  rx_valid : Bool
  rx_data : BitVec 8
  rx_last : Bool
deriving DecidableEq, Repr, Inhabited

/-- The machine: the block, and the MODEL's own two fields that stand for the world outside it, because the
fixed type of `step` has no input argument (DESIGN CHOICE, log 2). -/
structure State where
  /-- The block state of `10_state.md` R20. -/
  block : Block
  /-- The input vectors the coming edges sample, first first. Past its end the vectors are free. -/
  script : List Inputs
  /-- Edges taken so far: the argument of the free input vector. -/
  edge : Nat
deriving DecidableEq, Repr

/-- Why the machine could stop with a fault: it never does, so there is no constructor. `60_exceptions.md`
R170: the block raises no exception, takes no trap and never halts on an error; safe (log 15). -/
inductive Fault where
deriving DecidableEq, Repr

/-- Why the model could refuse an instruction. -/
inductive Refusal where
  /-- Raised by an arm of `exec` whose instruction has no meaning yet; no arm is such; safe (log 15). -/
  | notModelled (mnemonic : String)
deriving DecidableEq, Repr

/-- `RESET_STATE`, the reset column of `10_state.md` R20 (`70_reset_and_hazards.md` R190). -/
def Block.reset : Block where
  fsm := .idle
  op := .keepalive
  a := 0
  c := 0
  v := 0
  t := 0
  frame := .ka
  idx := 0
  timer := 0
  status := .sent
  rvalue := 0
  wake := false
  table := []
  rx_buf := []
  rx_len := 0
  dec_valid := false
  dec_kind := .keepalive
  dec_channel := 0
  dec_param := 0
  dec_value := 0

/-- The machine right after reset: the block as R190 leaves it; no input vector is foreseen and no edge has
passed (the last two are the model's own, DESIGN CHOICE, log 2). -/
def State.reset : State where
  block := Block.reset
  script := []
  edge := 0

end Sys2Proof.Machine
end

