-- ==== Sys2Proof/Machine/Flags.lean ====
section
/-! DEFINITION. The one flag and the result code (`10_state.md` R40): how `wake` is set and cleared, and which
result a found entry gives. No operation sets an arithmetic flag. -/

namespace Sys2Proof.Machine

/-- `S'.wake <- (S.wake and not wclr) or wset`: a set wins over a clear (`20_memory.md` R56). -/
def wakeAfter (wake wclr wset : Bool) : Bool := (wake && !wclr) || wset

/-- The result code of a WAIT that finds the value `x`: VALUE for a QUERY; for the other operations the exact
comparison of the read-back with the requested value `v` (`41_session.md` R142, R143, R150). -/
def foundStatus (op : Op) (x v : Value) : Status :=
  match op with
  | .query => .value
  | .keepalive => if x = v then .confirmed else .mismatch
  | .change => if x = v then .confirmed else .mismatch
  | .setConfirm => if x = v then .confirmed else .mismatch

end Sys2Proof.Machine
end

