-- ==== Sys2Proof/Config.lean ====
section
/-! DEFINITION. The implementation parameters of `00_scope.md` R7, and the values the spec leaves OPEN: each of
those is a constant WITHOUT A BODY, so that no proof can learn its value. -/

namespace Sys2Proof

/-- `ADDR_W` (R7). `Word.lean` writes the width out; `Tests` checks that the two agree. -/
def Config.addrW : Nat := 14
/-- `CH_W` (R7). -/
def Config.chW : Nat := 7
/-- `VALUE_W` (R7). -/
def Config.valueW : Nat := 32
/-- `TIMEOUT_W` (R7, decision D9). -/
def Config.timeoutW : Nat := 32
/-- `GROUPS`: 7-bit groups per value (R7). -/
def Config.groups : Nat := 5
/-- `KEY_SPACE`: the number of keys of the PendingReplyTable, 2^7 × 2^14 (R7, `20_memory.md` R50). -/
def Config.keySpace : Nat := 2 ^ 21
/-- `RX_CAP`: bytes of an inbound frame kept (R7, decision D23). -/
def Config.rxCap : Nat := 20
/-- `RX_LEN_SAT`: where the inbound length counter stops (R7, decision D23). -/
def Config.rxLenSat : Nat := 21

/-- The six encoder fill bytes (R7, `30_encoding.md` R81). -/
structure Config.Fills where
  chg10 : Byte
  chg11 : Byte
  chg18 : Byte
  qry11 : Byte
  qry12 : Byte
  qry14 : Byte
deriving DecidableEq, Repr

/-- The values R7 gives the fill bytes (decision D7). The codec's encoders take the fills as an argument, so
that a statement can leave them free (log 12). -/
def Config.fills : Config.Fills where
  chg10 := 0x00
  chg11 := 0x00
  chg18 := 0xF7
  qry11 := 0x00
  qry12 := 0x00
  qry14 := 0xF7

/-- `TICKS_PER_UNIT`, OPEN: tick pulses per source time unit (R7, decision D30; log 10). -/
opaque Config.ticksPerUnit : Nat

/-- `DEFAULT_TIMEOUT`, the caller's recommended timeout: 3 time units (R7). The block itself has no default. -/
def Config.defaultTimeout : Nat := 3 * Config.ticksPerUnit

/-- The power-on state, OPEN: any value (`70_reset_and_hazards.md` R193, decision D34; log 11). -/
opaque Config.powerOn : Machine.Block

/-- The input vector that the edge with this number samples where no script says it: free, because the device,
the caller and the clock of `tick` are inputs (`60_exceptions.md` R178, `41_session.md` R150; log 2). -/
opaque Config.freeInputs : Nat → Machine.Inputs

/-- `tx_data` for an index past the end of its frame, which only an unreachable state has and for which R36
gives no byte: free (`10_state.md` R39; log 9). -/
opaque Config.freeTxByte : Nat → Byte

end Sys2Proof
end

