-- ==== Sys2Proof/Syntax.lean ====
section
/-! DEFINITION. The instructions of the block: one constructor per row of `spec/opcode_table.json`, and the
typed messages and command words they are decoded from (`40_codec.md` section 1, `30_encoding.md` R83). -/

namespace Sys2Proof

/-- The Codec's typed message (`40_codec.md` section 1, the source's ProtocolMessage). -/
inductive Msg where
  | keepalive
  | changeParameter (channel : Channel) (param : Addr) (value : Value)
  | queryParameter (channel : Channel) (param : Addr)
  | replyParameter (channel : Channel) (param : Addr) (value : Value)
  | unknown (raw : Frame)
deriving DecidableEq, Repr

/-- The command word: the selector `cmd_op` and the four operand ports (`30_encoding.md` R83). -/
structure CommandWord where
  op : BitVec 2
  addr : Addr
  channel : Channel
  value : Value
  timeout : Ticks
deriving DecidableEq, Repr

/-- Where an instruction comes from: a complete frame on the RX port, or a word on the command port
(`00_scope.md` R2: the two parts of the block's instruction set; log 1). -/
inductive Packet where
  | frame (f : Frame)
  | command (w : CommandWord)
deriving DecidableEq, Repr

/-- The instructions: the five wire-message shapes, then the four commands (`00_scope.md` R2). A command
carries all four operands, because an operand it does not use is latched all the same
(`10_state.md` R23, `30_encoding.md` R84). -/
inductive Instr where
  /-- KEEPALIVE frame, 9 bytes (R72, R108). -/
  | keepalive
  /-- CHANGE_PARAMETER frame, 19 bytes (R73, R109). -/
  | changeParameter (channel : Channel) (param : Addr) (value : Value)
  /-- QUERY_PARAMETER frame, 15 bytes (R74, R110). -/
  | queryParameter (channel : Channel) (param : Addr)
  /-- REPLY_PARAMETER frame, 20 bytes (R75, R111). -/
  | replyParameter (channel : Channel) (param : Addr) (value : Value)
  /-- UNKNOWN: every other byte sequence (R76, R112). -/
  | unknown (raw : Frame)
  /-- CMD_KEEPALIVE, `cmd_op` = 00 (R131). -/
  | cmdKeepalive (addr : Addr) (channel : Channel) (value : Value) (timeout : Ticks)
  /-- CMD_CHANGE, `cmd_op` = 01 (R132). -/
  | cmdChange (addr : Addr) (channel : Channel) (value : Value) (timeout : Ticks)
  /-- CMD_QUERY, `cmd_op` = 10 (R133). -/
  | cmdQuery (addr : Addr) (channel : Channel) (value : Value) (timeout : Ticks)
  /-- CMD_SET_CONFIRM, `cmd_op` = 11 (R134). -/
  | cmdSetConfirm (addr : Addr) (channel : Channel) (value : Value) (timeout : Ticks)
deriving DecidableEq, Repr

end Sys2Proof
end

