-- ==== Sys2Proof/Machine/Wire.lean ====
section
/-! DEFINITION. The literals of the wire format, each in one place (`00_scope.md` R2, decision D42): the fixed
bytes, the lengths and the field offsets of `30_encoding.md` R72 to R75, summed up by its R88. -/

namespace Sys2Proof

/-- The Keepalive literal, all nine bytes (R72, `90_conflicts.md` C3). -/
def Wire.keepaliveFrame : Frame := [0xF0, 0x43, 0x10, 0x3E, 0x14, 0x00, 0x04, 0x02, 0xF7]

/-- The fixed first bytes of ChangeParameter, bytes 0..7 (R73). -/
def Wire.changeHead : Frame := [0xF0, 0x43, 0x10, 0x3E, 0x14, 0x01, 0x01, 0x00]
/-- The fixed first bytes of QueryParameter, bytes 0..8 (R74). -/
def Wire.queryHead : Frame := [0xF0, 0x43, 0x30, 0x3E, 0x14, 0x01, 0x04, 0x02, 0x00]
/-- The fixed first bytes of ReplyParameter, bytes 0..8 (R75). -/
def Wire.replyHead : Frame := [0xF0, 0x43, 0x10, 0x3E, 0x14, 0x01, 0x04, 0x02, 0x00]

/-- Length of Keepalive (R72). -/
def Wire.keepaliveLen : Nat := 9
/-- Length of ChangeParameter (R73). -/
def Wire.changeLen : Nat := 19
/-- Length of QueryParameter (R74). -/
def Wire.queryLen : Nat := 15
/-- Length of ReplyParameter (R75). -/
def Wire.replyLen : Nat := 20

/-- Offset of H in ChangeParameter (R73, R88). -/
def Wire.changeHigh : Nat := 8
/-- Offset of L in ChangeParameter (R73, R88). -/
def Wire.changeLow : Nat := 9
/-- Offset of the channel in ChangeParameter: 12, not 13 (R73, R80). -/
def Wire.changeChannel : Nat := 12
/-- Offset of G4 in ChangeParameter; G3..G0 follow (R73, R88). -/
def Wire.changeGroups : Nat := 13

/-- Offset of FILL_CHG10, which the source does not name (R73, R88). -/
def Wire.changeFill10 : Nat := 10
/-- Offset of FILL_CHG11 (R73, R88). -/
def Wire.changeFill11 : Nat := 11
/-- Offset of FILL_CHG18, the last byte (R73, R88). -/
def Wire.changeFill18 : Nat := 18

/-- Offset of H in QueryParameter (R74, R88). -/
def Wire.queryHigh : Nat := 9
/-- Offset of L in QueryParameter (R74, R88). -/
def Wire.queryLow : Nat := 10
/-- Offset of the channel in QueryParameter (R74, R80). -/
def Wire.queryChannel : Nat := 13

/-- Offset of FILL_QRY11 (R74, R88). -/
def Wire.queryFill11 : Nat := 11
/-- Offset of FILL_QRY12 (R74, R88). -/
def Wire.queryFill12 : Nat := 12
/-- Offset of FILL_QRY14, the last byte (R74, R88). -/
def Wire.queryFill14 : Nat := 14

/-- Offset of H in ReplyParameter (R75, R88). -/
def Wire.replyHigh : Nat := 9
/-- Offset of L in ReplyParameter (R75, R88). -/
def Wire.replyLow : Nat := 10
/-- Offset of the channel in ReplyParameter (R75, R80). -/
def Wire.replyChannel : Nat := 13
/-- Offset of G4 in ReplyParameter; G3..G0 follow (R75, R88). -/
def Wire.replyGroups : Nat := 14

/-- Offset of the first byte of ReplyParameter that the source does not name (R75, R88). -/
def Wire.replyFill11 : Nat := 11
/-- Offset of the second such byte (R75, R88). -/
def Wire.replyFill12 : Nat := 12
/-- Offset of the last such byte, the last of the frame (R75, R88). -/
def Wire.replyFill19 : Nat := 19

/-- A frame of this length that begins with the fixed bytes `head`, with each byte of `fields` at its offset. The
encoders place, and the decoders read (`byteAt`), by the one set of offsets above (R2, decision D42). -/
def layFrame (len : Nat) (head : Frame) (fields : List (Nat × Byte)) : Frame :=
  fields.foldl (fun f e => f.set e.1 e.2) (head ++ List.replicate (len - head.length) 0)

/-- `f[i]`, byte i of a frame; the decoders below read only indices the frame has (`00_scope.md` R8). -/
def byteAt (f : Frame) (i : Nat) : Byte := f.getD i 0

/-- A frame begins with these fixed bytes, compared on all 8 bits (`30_encoding.md` R70, R71). -/
def headMatches (head f : Frame) : Bool := f.take head.length == head

/-- The Keepalive shape: equality with the whole literal (R72, R108). -/
def isKeepalive (f : Frame) : Bool := f == Wire.keepaliveFrame

/-- The ChangeParameter shape: exact length and fixed bytes (R73, R109). -/
def isChange (f : Frame) : Bool := f.length == Wire.changeLen && headMatches Wire.changeHead f

/-- The QueryParameter shape (R74, R110). -/
def isQuery (f : Frame) : Bool := f.length == Wire.queryLen && headMatches Wire.queryHead f

/-- The ReplyParameter shape (R75, R111). -/
def isReply (f : Frame) : Bool := f.length == Wire.replyLen && headMatches Wire.replyHead f

/-- The frame has one of the four recognised shapes; every other byte sequence is Unknown (R76). -/
def isRecognised (f : Frame) : Bool := isKeepalive f || isChange f || isQuery f || isReply f

end Sys2Proof
end

