-- ==== Sys2Proof/WellFormed.lean ====
section
/-! DEFINITION. Which terms of `Instr` the machine's ports can mean. Every operand has the exact width of its
field or port (`40_codec.md` R105, `30_encoding.md` R84), so the one check left is that an Unknown carries a byte
sequence that no recognised shape takes (`30_encoding.md` R76; log 18). -/

namespace Sys2Proof

/-- The instruction is well-formed. -/
def Instr.wellFormed : Instr → Bool
  | .keepalive => true
  | .changeParameter _ _ _ => true
  | .queryParameter _ _ => true
  | .replyParameter _ _ _ => true
  | .unknown raw => !isRecognised raw
  | .cmdKeepalive _ _ _ _ => true
  | .cmdChange _ _ _ _ => true
  | .cmdQuery _ _ _ _ => true
  | .cmdSetConfirm _ _ _ _ => true

end Sys2Proof
end

