-- ==== Sys2Proof/Decode.lean ====
section
/-! DEFINITION. The Codec (`40_codec.md`) and the command word's decoding (`30_encoding.md` R83): field functions,
decoders, then the encoders. Decoding is total and rejects nothing: an unmatched frame is Unknown, by name (R85,
R107), and every value of `cmd_op` is assigned (R84). The Codec reads and writes no block state (R115). -/

namespace Sys2Proof

/-! ### Field functions (R71, R78 to R80, R100 to R103) -/

/-- The 7-bit group a field byte carries: bit 7 is ignored (`30_encoding.md` R71, R82, decision D8). -/
def group7 (b : Byte) : BitVec 7 := b.setWidth 7

/-- The field byte of a 7-bit group: `zext_8` (R71, R80). -/
def zext8 (g : BitVec 7) : Byte := g.setWidth 8

/-- The five value-group bytes, G4 first (R79). -/
structure Groups where
  g4 : Byte
  g3 : Byte
  g2 : Byte
  g1 : Byte
  g0 : Byte
deriving DecidableEq, Repr

/-- The groups in transmission order, most significant first (`20_memory.md` R58). -/
def Groups.toList (g : Groups) : Frame := [g.g4, g.g3, g.g2, g.g1, g.g0]

/-- Group `i` of a 35-bit pattern: bits `7i+6 .. 7i` (R79). -/
def slice7 (s : BitVec 35) (i : Nat) : Byte := zext8 (s.extractLsb' (7 * i) 7)

/-- `packValue`: the 35-bit sign extension of the value in five groups (R100, `90_conflicts.md` C1). -/
def packValue (v : Value) : Groups :=
  let s : BitVec 35 := v.signExtend 35
  { g4 := slice7 s 4, g3 := slice7 s 3, g2 := slice7 s 2, g1 := slice7 s 1, g0 := slice7 s 0 }

/-- The 35-bit accumulator of five groups, as an unbounded number (R79, R101). -/
def accumulate35 (g : Groups) : Nat :=
  (group7 g.g4).toNat * 128 ^ 4 + (group7 g.g3).toNat * 128 ^ 3 + (group7 g.g2).toNat * 128 ^ 2
    + (group7 g.g1).toNat * 128 + (group7 g.g0).toNat

/-- `unpackValue`: the low 32 bits of the accumulator; as an i32 they are read by `BitVec.toInt` (R101,
`90_conflicts.md` C6). -/
def unpackValue (g : Groups) : Value := BitVec.ofNat 32 (accumulate35 g)

/-- `splitAddr`, the high group: `a[13:7]` (R102). -/
def splitHigh (a : Addr) : Byte := zext8 (a.extractLsb' 7 7)

/-- `splitAddr`, the low group: `a[6:0]` (R102). -/
def splitLow (a : Addr) : Byte := zext8 (a.extractLsb' 0 7)

/-- `joinAddr`: `(H & 0x7F) * 128 + (L & 0x7F)` (R103). -/
def joinAddr (high low : Byte) : Addr :=
  BitVec.ofNat 14 ((group7 high).toNat * 128 + (group7 low).toNat)

/-- The five group bytes with their places in a frame, G4 at index `i` (R88). -/
def Groups.fields (g : Groups) (i : Nat) : List (Nat × Byte) :=
  [(i, g.g4), (i + 1, g.g3), (i + 2, g.g2), (i + 3, g.g1), (i + 4, g.g0)]

/-- The five group bytes of a frame, G4 at index `i` (R88). -/
def groupsAt (f : Frame) (i : Nat) : Groups :=
  { g4 := byteAt f i, g3 := byteAt f (i + 1), g2 := byteAt f (i + 2), g1 := byteAt f (i + 3),
    g0 := byteAt f (i + 4) }

/-! ### The decoder (R107 to R112) -/

/-- `decode`: a message for every byte sequence, the empty one included; it never fails (R107). -/
def decode (f : Frame) : Msg :=
  if isKeepalive f then .keepalive
  else if isChange f then
    .changeParameter (group7 (byteAt f Wire.changeChannel))
      (joinAddr (byteAt f Wire.changeHigh) (byteAt f Wire.changeLow))
      (unpackValue (groupsAt f Wire.changeGroups))
  else if isQuery f then
    .queryParameter (group7 (byteAt f Wire.queryChannel))
      (joinAddr (byteAt f Wire.queryHigh) (byteAt f Wire.queryLow))
  else if isReply f then
    .replyParameter (group7 (byteAt f Wire.replyChannel))
      (joinAddr (byteAt f Wire.replyHigh) (byteAt f Wire.replyLow))
      (unpackValue (groupsAt f Wire.replyGroups))
  else .unknown f

/-- `decodeCapped`: the listener's decoder over the bytes it kept and the length it counted (R112). -/
def decodeCapped (buf : Frame) (n : Nat) : Msg :=
  if Config.rxLenSat ≤ n then .unknown buf else decode buf

/-- The instruction a typed message is. -/
def Msg.toInstr : Msg → Instr
  | .keepalive => .keepalive
  | .changeParameter ch p x => .changeParameter ch p x
  | .queryParameter ch p => .queryParameter ch p
  | .replyParameter ch p x => .replyParameter ch p x
  | .unknown raw => .unknown raw

/-- The instruction on the command port: each value of `cmd_op` selects one (R83, R84). -/
def decodeCommand (w : CommandWord) : Instr :=
  if w.op = 0b00#2 then .cmdKeepalive w.addr w.channel w.value w.timeout
  else if w.op = 0b01#2 then .cmdChange w.addr w.channel w.value w.timeout
  else if w.op = 0b10#2 then .cmdQuery w.addr w.channel w.value w.timeout
  else .cmdSetConfirm w.addr w.channel w.value w.timeout

/-- The instruction a packet stands for. -/
def decodePacket : Packet → Instr
  | .frame f => (decode f).toInstr
  | .command w => decodeCommand w

/-! ### The opcode table's numbering (log 6, log 7) -/

/-- `n` bytes of a number, the least significant first. -/
def bytesOfNat : Nat → Nat → Frame
  | 0, _ => []
  | n + 1, w => BitVec.ofNat 8 w :: bytesOfNat n (w / 256)

/-- The command word in one number: `cmd_op` in bits 1..0, as the opcode table has it, then the operand ports in
the order R83 lists them: `cmd_addr` 15..2, `cmd_channel` 22..16, `cmd_value` 54..23, `cmd_timeout` 86..55
(DESIGN CHOICE: the spec gives the ports no common word; log 6). -/
def commandWordOfNat (w : Nat) : CommandWord where
  op := BitVec.ofNat 2 w
  addr := BitVec.ofNat 14 (w >>> 2)
  channel := BitVec.ofNat 7 (w >>> 16)
  value := BitVec.ofNat 32 (w >>> 23)
  timeout := BitVec.ofNat 32 (w >>> 55)

/-- The packet that `nbits` bits numbered as the opcode table numbers them stand for: one byte at most is the
command port's selector (its operands above it zero), anything longer a frame, its first byte least
significant (DESIGN CHOICE, log 7). -/
def packetOfTableWord (nbits w : Nat) : Packet :=
  if 1 ≤ nbits ∧ nbits ≤ 8 then .command (commandWordOfNat w)
  else .frame (bytesOfNat ((nbits + 7) / 8) w)

/-- The instruction the decoder reads from table bits; it refuses none. -/
def decodeTableWord (nbits w : Nat) : Option Instr :=
  some (decodePacket (packetOfTableWord nbits w))

/-! ### The encoders (R104 to R106, R114) -/

/-- `encodeKeepalive` (R104). -/
def encodeKeepalive : Frame := Wire.keepaliveFrame

/-- `encodeChangeParameter(param, value, channel)` (R105). -/
def encodeChangeParameter (fl : Config.Fills) (param : Addr) (value : Value) (channel : Channel) : Frame :=
  layFrame Wire.changeLen Wire.changeHead
    ([(Wire.changeFill10, fl.chg10), (Wire.changeFill11, fl.chg11), (Wire.changeFill18, fl.chg18),
      (Wire.changeHigh, splitHigh param), (Wire.changeLow, splitLow param), (Wire.changeChannel, zext8 channel)]
      ++ (packValue value).fields Wire.changeGroups)

/-- `encodeQueryParameter(param, channel)` (R106). -/
def encodeQueryParameter (fl : Config.Fills) (param : Addr) (channel : Channel) : Frame :=
  layFrame Wire.queryLen Wire.queryHead
    [(Wire.queryFill11, fl.qry11), (Wire.queryFill12, fl.qry12), (Wire.queryFill14, fl.qry14),
      (Wire.queryHigh, splitHigh param), (Wire.queryLow, splitLow param), (Wire.queryChannel, zext8 channel)]

/-- `buildReplyFrame(c, p, v)`: the harness's frame, never the block's; bytes 11, 12 and 19 are 00, 00 and F7
(R114, `90_conflicts.md` C5). -/
def buildReplyFrame (c : Channel) (p : Addr) (v : Value) : Frame :=
  layFrame Wire.replyLen Wire.replyHead
    ([(Wire.replyFill11, 0x00), (Wire.replyFill12, 0x00), (Wire.replyFill19, 0xF7),
      (Wire.replyHigh, splitHigh p), (Wire.replyLow, splitLow p), (Wire.replyChannel, zext8 c)]
      ++ (packValue v).fields Wire.replyGroups)

/-- The packet of an instruction, for any value of the fill bytes: frames by the encoders and the harness's
builder, commands by their `cmd_op` (R83, R104 to R106, R114). -/
def encode (fl : Config.Fills) : Instr → Packet
  | .keepalive => .frame encodeKeepalive
  | .changeParameter ch p x => .frame (encodeChangeParameter fl p x ch)
  | .queryParameter ch p => .frame (encodeQueryParameter fl p ch)
  | .replyParameter ch p x => .frame (buildReplyFrame ch p x)
  | .unknown raw => .frame raw
  | .cmdKeepalive a c v t => .command { op := 0b00, addr := a, channel := c, value := v, timeout := t }
  | .cmdChange a c v t => .command { op := 0b01, addr := a, channel := c, value := v, timeout := t }
  | .cmdQuery a c v t => .command { op := 0b10, addr := a, channel := c, value := v, timeout := t }
  | .cmdSetConfirm a c v t => .command { op := 0b11, addr := a, channel := c, value := v, timeout := t }

end Sys2Proof
end

