-- ==== Sys2Proof/Machine/Operands.lean ====
section
/-! DEFINITION. The operand forms: what each port and each latched register supplies to an operation
(`30_encoding.md` R83, `10_state.md` R23 to R25, R30, `40_codec.md` R116). -/

namespace Sys2Proof.Machine

/-- The number of a key, channel first, then address (`20_memory.md` R50; log 13). -/
def keyIndex (k : Key) : Nat := k.1.toNat * 2 ^ Config.addrW + k.2.toNat

/-- The key of the command in progress: `(S.c, S.a)` (`41_session.md` R138). -/
def Block.key (b : Block) : Key := (b.c, b.a)

/-- The command word the command port offers (`30_encoding.md` R83). -/
def Inputs.commandWord (I : Inputs) : CommandWord where
  op := I.cmd_op
  addr := I.cmd_addr
  channel := I.cmd_channel
  value := I.cmd_value
  timeout := I.cmd_timeout

/-- `LEN`: the length of the frame being emitted (`40_codec.md` R116). -/
def frameLen : FrameSel → Nat
  | .ka => Wire.keepaliveLen
  | .chg => Wire.changeLen
  | .qry => Wire.queryLen

/-- `FRAME`: the frame the caller path emits, with the configured fill bytes (`40_codec.md` R116). -/
def frameBytes (sel : FrameSel) (a : Addr) (c : Channel) (v : Value) : Frame :=
  match sel with
  | .ka => encodeKeepalive
  | .chg => encodeChangeParameter Config.fills a v c
  | .qry => encodeQueryParameter Config.fills a c

/-- The byte in transfer is the last of its frame: `S.idx = LEN(S.frame) - 1` (`41_session.md` R136). -/
def Block.atLastByte (b : Block) : Bool := b.idx.toNat == frameLen b.frame - 1

/-- The buffer with the arriving byte, which is kept only below the cap (`41_session.md` R145). -/
def Block.rxBytes (b : Block) (data : Byte) : List Byte :=
  if b.rx_len.toNat < Config.rxCap then b.rx_buf ++ [data] else b.rx_buf

/-- The saturating count with the arriving byte (`41_session.md` R145). -/
def Block.rxCount (b : Block) : Nat := min (b.rx_len.toNat + 1) Config.rxLenSat

/-- The message that the arriving byte completes (`41_session.md` R146). -/
def Block.rxMessage (b : Block) (data : Byte) : Msg := decodeCapped (b.rxBytes data) b.rxCount

/-- `kind(m)` (`41_session.md` R150). -/
def kindOf : Msg → DecKind
  | .keepalive => .keepalive
  | .changeParameter _ _ _ => .change
  | .queryParameter _ _ => .query
  | .replyParameter _ _ _ => .reply
  | .unknown _ => .unknown

/-- `fieldsOrZero(m)` (`41_session.md` R150, decision D24). -/
def fieldsOrZero : Msg → Channel × Addr × Value
  | .keepalive => (0, 0, 0)
  | .changeParameter ch p x => (ch, p, x)
  | .queryParameter ch p => (ch, p, 0)
  | .replyParameter ch p x => (ch, p, x)
  | .unknown _ => (0, 0, 0)

/-- The operation a value of `cmd_op` selects (`30_encoding.md` R83). -/
def opOfBits (op : BitVec 2) : Op :=
  if op = 0b00#2 then .keepalive
  else if op = 0b01#2 then .change
  else if op = 0b10#2 then .query
  else .setConfirm

end Sys2Proof.Machine
end

