-- ==== Sys2Proof/Machine/Ops.lean ====
section
/-! DEFINITION. The named operations: the PendingReplyTable's primitives (`20_memory.md` R51 to R54) and the
updates of the block that the meanings share. The block takes no exception and returns from none
(`60_exceptions.md` R170, R174, R175); where another machine enters a handler, this one completes the command with a
result code, which is `Block.complete`, and goes back to IDLE, which is `Block.release`. -/

namespace Sys2Proof.Machine

/-! ### The table (`20_memory.md` R50 to R53) -/

/-- The entry at a key's number: `none` where nothing is listed, which is the reset contents (R50, R190). -/
def readAt : Table → Nat → Option Value
  | [], _ => none
  | (j, x) :: rest, n => if j = n then some x else readAt rest n

/-- The table with this entry listed at its place in the rising order, in place of any entry there. -/
def insertAt : Table → Nat → Value → Table
  | [], n, x => [(n, x)]
  | (j, y) :: rest, n, x =>
    if n < j then (n, x) :: (j, y) :: rest
    else if n = j then (n, x) :: rest
    else (j, y) :: insertAt rest n x

/-- The table without an entry at this number. -/
def eraseAt : Table → Nat → Table
  | [], _ => []
  | (j, y) :: rest, n => if j = n then eraseAt rest n else (j, y) :: eraseAt rest n

/-- `TblRead(k)` (R51). -/
def tblRead (T : Table) (k : Key) : Option Value := readAt T (keyIndex k)

/-- `TblWrite(k, x)` (R52). -/
def tblWrite (T : Table) (k : Key) (x : Value) : Table := insertAt T (keyIndex k) x

/-- `TblClear(k)`: an absent entry may be cleared, which changes nothing (R53). -/
def tblClear (T : Table) (k : Key) : Table := eraseAt T (keyIndex k)

/-- The numbers of a table rise strictly from above `lo` and stay below the key space. -/
def Memory.wfFrom : Option Nat → Table → Bool
  | _, [] => true
  | lo, (j, _) :: rest =>
    (match lo with
      | none => true
      | some m => decide (m < j)) && decide (j < Config.keySpace) && Memory.wfFrom (some j) rest

/-- The canonical form of the table: numbers strictly rising, each the number of a key, so that equal maps are
equal lists. An unlisted key reads `none` and a listed one never does, so no entry is redundant (log 13). -/
def Memory.wf (T : Table) : Bool := Memory.wfFrom none T

/-! ### Updates of the block: caller path -/

/-- Command acceptance: latch operation and operands, start the frame at byte 0, go to SEND (`41_session.md`
R130; `10_state.md` R23). -/
def Block.accept (b : Block) (op : Op) (sel : FrameSel) (a : Addr) (c : Channel) (v : Value) (t : Ticks) : Block :=
  { b with op := op, a := a, c := c, v := v, t := t, idx := 0, fsm := .send, frame := sel }

/-- The query-start actions, and the pop's removal: clear the key and `wake` (`41_session.md` R137, R142;
`20_memory.md` R53, R54, R57). -/
def Block.discard (b : Block) (k : Key) : Block :=
  { b with table := tblClear b.table k, wake := wakeAfter b.wake true false }

/-- A WAIT that has examined `wake` clears it (`41_session.md` R139, `20_memory.md` R57). -/
def Block.clearWake (b : Block) : Block := { b with wake := wakeAfter b.wake true false }

/-- Completion of a command: present the result on the response port (`10_state.md` R27). -/
def Block.complete (b : Block) (st : Status) (x : Value) : Block :=
  { b with fsm := .resp, status := st, rvalue := x }

/-- The response is taken: back to IDLE (`41_session.md` R144). -/
def Block.release (b : Block) : Block := { b with fsm := .idle }

/-- A byte that is not the last is transferred (`41_session.md` R135). -/
def Block.nextByte (b : Block) : Block := { b with idx := b.idx + 1 }

/-- SET_CONFIRM goes on from the Change frame to the Query frame (`41_session.md` R136). -/
def Block.startQuery (b : Block) : Block := { b with frame := .qry, idx := 0 }

/-- The query is sent: load the timer and wait (`41_session.md` R136, `10_state.md` R26). -/
def Block.enterWait (b : Block) : Block := { b with fsm := .wait, timer := b.t }

/-- One tick of the budget is spent (`41_session.md` R140). -/
def Block.tickDown (b : Block) : Block := { b with timer := b.timer - 1 }

/-! ### Updates of the block: listener path -/

/-- An edge that completes no frame (`41_session.md` R149). -/
def Block.noFrame (b : Block) : Block := { b with dec_valid := false }

/-- A byte that does not end its frame is kept and counted (`41_session.md` R145). -/
def Block.keepByte (b : Block) (data : Byte) : Block :=
  { b with rx_buf := b.rxBytes data, rx_len := BitVec.ofNat 5 b.rxCount }

/-- A frame is complete: show its kind and fields on the decoded-message registers and start afresh
(`41_session.md` R146, R149; `10_state.md` R31). -/
def Block.observe (b : Block) (kind : DecKind) (ch : Channel) (p : Addr) (x : Value) : Block :=
  { b with
    dec_valid := true, dec_kind := kind, dec_channel := ch, dec_param := p, dec_value := x,
    rx_buf := [], rx_len := 0 }

/-- A Reply: insert its value at its key and raise `wake` (`41_session.md` R147, `20_memory.md` R52, R57). -/
def Block.insertReply (b : Block) (k : Key) (x : Value) : Block :=
  { b with table := tblWrite b.table k x, wake := wakeAfter b.wake false true }

/-! ### The machine around the block -/

/-- The machine with another block state. -/
def State.withBlock (s : State) (b : Block) : State := { s with block := b }

/-- The vector the next edge samples: the script's first, and a free one where the script is empty (log 2). -/
def State.input (s : State) : Inputs :=
  match s.script with
  | [] => Config.freeInputs s.edge
  | I :: _ => I

/-- The edge is over: its vector is used up and counted. -/
def State.advance (s : State) : State :=
  { s with script := s.script.tail, edge := s.edge + 1 }

/-- The machine at power-on: any block state at all (`70_reset_and_hazards.md` R193; log 11). -/
def State.powerOn : State where
  block := Config.powerOn
  script := []
  edge := 0

/-- One outcome after another: a fault or a refusal stops. -/
def andThen (o : Host.Outcome State Fault Refusal) (k : State → Host.Outcome State Fault Refusal) :
    Host.Outcome State Fault Refusal :=
  match o with
  | .next s => k s
  | .fault r => .fault r
  | .refused r => .refused r

end Sys2Proof.Machine
end

