-- ==== Sys2Proof/Machine/Caller.lean ====
section
/-! DEFINITION. The caller path's edges while a command is in progress: SEND, WAIT and RESP
(`41_session.md` R135 to R144). -/

namespace Sys2Proof.Machine

/-- The last byte of the frame is transferred (R136). -/
def Block.frameSent (b : Block) : Block :=
  match b.frame with
  | .ka => b.complete .sent 0
  | .chg => if b.op = .change then b.complete .sent 0 else (b.startQuery).discard b.key
  | .qry => b.enterWait

/-- An edge in SEND: a byte moves only with `tx_ready` = 1, and nothing changes otherwise (R135, R136, R200). -/
def Block.sendEdge (b : Block) (tx_ready : Bool) : Block :=
  if tx_ready then (if b.atLastByte then b.frameSent else b.nextByte) else b

/-- The "keep waiting" branch: an examined `wake` is cleared and a tick is counted (R139, R140). -/
def Block.keepWaiting (b : Block) (tick : Bool) : Block :=
  let examined := if b.wake then b.clearWake else b
  if tick then examined.tickDown else examined

/-- The WAIT evaluation finds this value: `wake` is up and the awaited key has an entry (R138). -/
def Block.found (b : Block) : Option Value := if b.wake then tblRead b.table b.key else none

/-- An edge in WAIT: an entry beats the expiry, the expiry beats the retry, and
leaves `wake` as it is (R138, R141 to R143; log 20). -/
def Block.waitEdge (b : Block) (tick : Bool) : Block :=
  match b.found with
  | some x => (b.discard b.key).complete (foundStatus b.op x b.v) x
  | none => if b.timer = 0 then b.complete .timeout 0 else b.keepWaiting tick

/-- An edge in RESP: the result is held until it is taken (R144). -/
def Block.respEdge (b : Block) (rsp_ready : Bool) : Block :=
  if rsp_ready then b.release else b

end Sys2Proof.Machine
end

