-- ==== Sys2Proof/Machine/Codec.lean ====
section
/-! DEFINITION. The meanings of the five wire frames: what the listener path does at the edge whose byte completes
the frame (`41_session.md` R146 to R148). None touches an element of the caller path but `table` and `wake`
(`60_exceptions.md` R173, R179). The frame is taken as complete: none reads the inbound buffer (log 21). -/

namespace Sys2Proof.Machine

/-- KEEPALIVE received: observed and dropped (R108, R146, R148). -/
def execKeepalive (s : State) : Host.Outcome State Fault Refusal :=
  .next (s.withBlock (s.block.observe .keepalive 0 0 0))

/-- CHANGE_PARAMETER received: observed and dropped (R109, R146, R148). -/
def execChangeParameter (channel : Channel) (param : Addr) (value : Value) (s : State) :
    Host.Outcome State Fault Refusal :=
  .next (s.withBlock (s.block.observe .change channel param value))

/-- QUERY_PARAMETER received: observed, with value 0, and dropped (R110, R146, R148, decision D24). -/
def execQueryParameter (channel : Channel) (param : Addr) (s : State) : Host.Outcome State Fault Refusal :=
  .next (s.withBlock (s.block.observe .query channel param 0))

/-- REPLY_PARAMETER received: observed, inserted at its key, and `wake` raised (R111, R146, R147). -/
def execReplyParameter (channel : Channel) (param : Addr) (value : Value) (s : State) :
    Host.Outcome State Fault Refusal :=
  .next (s.withBlock ((s.block.observe .reply channel param value).insertReply (channel, param) value))

/-- UNKNOWN received: observed and dropped, its raw bytes not retained (R112, R146, R148; `10_state.md` R31). -/
def execUnknown (s : State) : Host.Outcome State Fault Refusal :=
  .next (s.withBlock (s.block.observe .unknown 0 0 0))

end Sys2Proof.Machine
end

