-- ==== Sys2Proof/Machine/Session.lean ====
section
/-! DEFINITION. The meanings of the four commands: what the caller path does at the edge that accepts the command
(`41_session.md` R130 to R134). Outside IDLE `cmd_valid` is ignored, so there a command changes nothing and stays
offered (R130; log 5). The rest of a command is done by the edges that follow: `Machine/Caller.lean` (log 1). -/

namespace Sys2Proof.Machine

/-- A command is accepted only in IDLE (R130). -/
def whenIdle (s : State) (accepted : Block) : Host.Outcome State Fault Refusal :=
  match s.block.fsm with
  | .idle => .next (s.withBlock accepted)
  | .send => .next s
  | .wait => .next s
  | .resp => .next s

/-- CMD_KEEPALIVE: latch, and emit the Keepalive frame (R130, R131). -/
def execCmdKeepalive (addr : Addr) (channel : Channel) (value : Value) (timeout : Ticks) (s : State) :
    Host.Outcome State Fault Refusal :=
  whenIdle s (s.block.accept .keepalive .ka addr channel value timeout)

/-- CMD_CHANGE: latch, and emit the ChangeParameter frame (R130, R132). -/
def execCmdChange (addr : Addr) (channel : Channel) (value : Value) (timeout : Ticks) (s : State) :
    Host.Outcome State Fault Refusal :=
  whenIdle s (s.block.accept .change .chg addr channel value timeout)

/-- CMD_QUERY: latch, do the query-start actions on the offered key, and emit the QueryParameter frame (R130,
R133, R137). -/
def execCmdQuery (addr : Addr) (channel : Channel) (value : Value) (timeout : Ticks) (s : State) :
    Host.Outcome State Fault Refusal :=
  whenIdle s ((s.block.accept .query .qry addr channel value timeout).discard (channel, addr))

/-- CMD_SET_CONFIRM: latch, and emit the ChangeParameter frame; the query-start actions come at its last byte
(R130, R134, R136). -/
def execCmdSetConfirm (addr : Addr) (channel : Channel) (value : Value) (timeout : Ticks) (s : State) :
    Host.Outcome State Fault Refusal :=
  whenIdle s (s.block.accept .setConfirm .chg addr channel value timeout)

end Sys2Proof.Machine
end

