-- ==== Sys2Proof/Machine/Dispatch.lean ====
section
/-! DEFINITION. One arm per instruction of `spec/opcode_table.json`, each one direct call of its meaning. -/

namespace Sys2Proof.Machine

def exec (i : Instr) (s : State) : Host.Outcome State Fault Refusal :=
  match i with
  -- the wire frames (40_codec.md, 41_session.md section 6)
  | .keepalive => Sys2Proof.Machine.execKeepalive s
  | .changeParameter channel param value => Sys2Proof.Machine.execChangeParameter channel param value s
  | .queryParameter channel param => Sys2Proof.Machine.execQueryParameter channel param s
  | .replyParameter channel param value => Sys2Proof.Machine.execReplyParameter channel param value s
  | .unknown _ => Sys2Proof.Machine.execUnknown s
  -- the commands (41_session.md sections 1 and 2)
  | .cmdKeepalive addr channel value timeout => Sys2Proof.Machine.execCmdKeepalive addr channel value timeout s
  | .cmdChange addr channel value timeout => Sys2Proof.Machine.execCmdChange addr channel value timeout s
  | .cmdQuery addr channel value timeout => Sys2Proof.Machine.execCmdQuery addr channel value timeout s
  | .cmdSetConfirm addr channel value timeout => Sys2Proof.Machine.execCmdSetConfirm addr channel value timeout s

end Sys2Proof.Machine
end

