-- ==== Sys2Proof/Machine/Edge.lean ====
section
/-! DEFINITION. One rising clock edge: the caller path, then the listener path, each running the instruction that
its port completes at this edge. The listener path reads nothing that the caller path writes, so this order is the
same-edge order of `20_memory.md` R56: clear first, insert second (log 4). -/

namespace Sys2Proof.Machine

/-- The caller path at an edge with `rst` = 0: in IDLE it runs an offered command, elsewhere it goes on with the
command in progress (`41_session.md` R150). -/
def callerPath (I : Inputs) (s : State) : Host.Outcome State Fault Refusal :=
  match s.block.fsm with
  | .idle => if I.cmd_valid then exec (decodeCommand I.commandWord) s else .next s
  | .send => .next (s.withBlock (s.block.sendEdge I.tx_ready))
  | .wait => .next (s.withBlock (s.block.waitEdge I.tick))
  | .resp => .next (s.withBlock (s.block.respEdge I.rsp_ready))

/-- The listener path at an edge with `rst` = 0: it runs the frame that a byte with `rx_last` = 1 completes, and
keeps any other byte (`41_session.md` R145 to R149). -/
def listenerPath (I : Inputs) (s : State) : Host.Outcome State Fault Refusal :=
  if I.rx_valid then
    if I.rx_last then exec (s.block.rxMessage I.rx_data).toInstr s
    else .next (s.withBlock (s.block.noFrame.keepByte I.rx_data))
  else .next (s.withBlock s.block.noFrame)

/-- One rising edge: `rst` = 1 beats every other input (`70_reset_and_hazards.md` R190, `60_exceptions.md` R173),
otherwise both paths step. -/
def clockEdge (s : State) : Host.Outcome State Fault Refusal :=
  if s.input.rst then .next (s.withBlock Block.reset).advance
  else
    andThen (callerPath s.input s) fun s1 =>
      andThen (listenerPath s.input s1) fun s2 => .next s2.advance

/-- A vector in which no input is asserted. -/
def Inputs.quiet : Inputs where
  rst := false
  tick := false
  cmd_valid := false
  cmd_op := 0
  cmd_addr := 0
  cmd_channel := 0
  cmd_value := 0
  cmd_timeout := 0
  rsp_ready := false
  tx_ready := false
  rx_valid := false
  rx_data := 0
  rx_last := false

/-- A vector that offers a command and nothing else. -/
def Inputs.offering (w : CommandWord) : Inputs :=
  { Inputs.quiet with
    cmd_valid := true, cmd_op := w.op, cmd_addr := w.addr, cmd_channel := w.channel, cmd_value := w.value,
    cmd_timeout := w.timeout }

/-- A vector that presents one inbound byte and nothing else. -/
def Inputs.receiving (data : Byte) (last : Bool) : Inputs :=
  { Inputs.quiet with rx_valid := true, rx_data := data, rx_last := last }

/-- `s` with this packet where the next edge takes its instruction: a command on the command port of a block in
IDLE; a frame as its last byte on the RX port after the others in the buffer. The RX port cannot deliver an empty
frame (decision D39), for which the vector is quiet (log 3, log 14). -/
def State.present (s : State) (p : Packet) : State :=
  match p with
  | .command w =>
    { s with block := { s.block with fsm := .idle }, script := Inputs.offering w :: s.script.tail }
  | .frame f =>
    match f.reverse with
    | [] => { s with script := Inputs.quiet :: s.script.tail }
    | last :: front =>
      { s with
        block :=
          { s.block with
            rx_buf := front.reverse.take Config.rxCap,
            rx_len := BitVec.ofNat 5 (min front.length Config.rxLenSat) },
        script := Inputs.receiving last true :: s.script.tail }

end Sys2Proof.Machine
end

