-- ==== Sys2Proof/Machine/Step.lean ====
section
/-! DEFINITION. One step of the machine is one rising clock edge (`00_scope.md` R11, `41_session.md` R150). -/

namespace Sys2Proof.Machine

/-- One step: the edge of `Machine/Edge.lean`. -/
def step (s : State) : Host.Outcome State Fault Refusal := clockEdge s

/-- `s` with the instruction of these table bits where the very next step takes its instruction (log 3, log 7). -/
def State.withFetchWord (s : State) (nbits w : Nat) : State := s.present (packetOfTableWord nbits w)

end Sys2Proof.Machine
end

