-- ==== Sys2Proof/Machine/Outputs.lean ====
section
/-! DEFINITION. The output ports: functions of the block state and of the `rst` input alone (`10_state.md` R36), and
the handshakes they take part in (`00_scope.md` R11). -/

namespace Sys2Proof.Machine

/-- The output-port vector (`10_state.md` R35). -/
structure Outputs where
  cmd_ready : Bool
  busy : Bool
  tx_valid : Bool
  tx_data : BitVec 8
  tx_last : Bool
  rsp_valid : Bool
  rsp_op : BitVec 2
  rsp_status : BitVec 3
  rsp_value : BitVec 32
  rsp_found : Bool
  rsp_confirmed : Bool
  dec_valid : Bool
  dec_kind : BitVec 3
  dec_channel : BitVec 7
  dec_param : BitVec 14
  dec_value : BitVec 32
deriving DecidableEq, Repr

/-- The encoding of an operation (`30_encoding.md` R83). -/
def Op.code : Op → BitVec 2
  | .keepalive => 0
  | .change => 1
  | .query => 2
  | .setConfirm => 3

/-- The encoding of a result code (`60_exceptions.md` R171). -/
def Status.code : Status → BitVec 3
  | .sent => 0
  | .value => 1
  | .timeout => 2
  | .confirmed => 3
  | .mismatch => 4

/-- The encoding of a message kind (`41_session.md` R149). -/
def DecKind.code : DecKind → BitVec 3
  | .keepalive => 0
  | .change => 1
  | .query => 2
  | .reply => 3
  | .unknown => 4

/-- The source's `Option` is `some`: VALUE, CONFIRMED or MISMATCH (R36, `60_exceptions.md` R171). -/
def Status.found : Status → Bool
  | .sent => false
  | .value => true
  | .timeout => false
  | .confirmed => true
  | .mismatch => true

/-- `tx_data`: byte `idx` of the frame in SEND, 0x00 elsewhere; past the frame's end, where no reachable state
stands, a free byte (R36, R39; log 9). -/
def Block.txData (b : Block) : Byte :=
  match b.fsm with
  | .send => (frameBytes b.frame b.a b.c b.v).getD b.idx.toNat (Config.freeTxByte b.idx.toNat)
  | .idle => 0x00
  | .wait => 0x00
  | .resp => 0x00

/-- The output equations (R36). -/
def Block.outputs (b : Block) (rst : Bool) : Outputs where
  cmd_ready := !rst && b.fsm == .idle
  busy := b.fsm != .idle
  tx_valid := !rst && b.fsm == .send
  tx_data := b.txData
  tx_last := (!rst && b.fsm == .send) && b.atLastByte
  rsp_valid := !rst && b.fsm == .resp
  rsp_op := b.op.code
  rsp_status := b.status.code
  rsp_value := b.rvalue
  rsp_found := b.status.found
  rsp_confirmed := b.status == .confirmed
  dec_valid := b.dec_valid
  dec_kind := b.dec_kind.code
  dec_channel := b.dec_channel
  dec_param := b.dec_param
  dec_value := b.dec_value

/-- The command handshake takes place at this edge: `cmd_valid` and `cmd_ready` (R11, `41_session.md` R130). -/
def Block.cmdAccepted (b : Block) (I : Inputs) : Bool := (b.outputs I.rst).cmd_ready && I.cmd_valid

/-- The response handshake takes place at this edge (R11, `41_session.md` R144). -/
def Block.rspTaken (b : Block) (I : Inputs) : Bool := (b.outputs I.rst).rsp_valid && I.rsp_ready

/-- The byte that the TX handshake moves at this edge, with its `tx_last` (R11, `41_session.md` R135, R136). -/
def Block.txTransfer (b : Block) (I : Inputs) : Option (Byte × Bool) :=
  if (b.outputs I.rst).tx_valid && I.tx_ready then
    some ((b.outputs I.rst).tx_data, (b.outputs I.rst).tx_last)
  else none

/-- The input vector completes an inbound frame: `rx_valid` and `rx_last`, and no reset (`41_session.md` R146). -/
def Inputs.completesFrame (I : Inputs) : Bool := !I.rst && (I.rx_valid && I.rx_last)

end Sys2Proof.Machine
end

