-- ==== Sys2Proof/Machine/Reference.lean ====
section
/-! DEFINITION. `step(S, I)` of `41_session.md` R150, transcribed line for line as one function of the block state and
the input vector, with its request signals and its shared-state commit. The machine's own `step` is built from the
instructions' meanings instead; that the two agree is a statement for the provers. -/

namespace Sys2Proof.Machine

/-- The request signals of one edge (`20_memory.md` R56). -/
structure Requests where
  clr : Option Key
  wclr : Bool
  ins : Option (Key × Value)
  wset : Bool
deriving DecidableEq, Repr

/-- `clr_en <- 0; wclr <- 0; ins_en <- 0; wset <- 0`. -/
def Requests.zero : Requests where
  clr := none
  wclr := false
  ins := none
  wset := false

/-- R150, the caller path: the next block state and the requests. -/
def refCaller (S : Block) (I : Inputs) : Block × Requests :=
  match S.fsm with
  | .idle =>
    if I.cmd_valid then
      let L : Block :=
        { S with
          op := opOfBits I.cmd_op, a := I.cmd_addr, c := I.cmd_channel, v := I.cmd_value, t := I.cmd_timeout,
          idx := 0, fsm := .send }
      match opOfBits I.cmd_op with
      | .keepalive => ({ L with frame := .ka }, Requests.zero)
      | .change => ({ L with frame := .chg }, Requests.zero)
      | .setConfirm => ({ L with frame := .chg }, Requests.zero)
      | .query =>
        ({ L with frame := .qry }, { Requests.zero with clr := some (I.cmd_channel, I.cmd_addr), wclr := true })
    else (S, Requests.zero)
  | .send =>
    if I.tx_ready then
      if S.idx.toNat = frameLen S.frame - 1 then
        match S.frame with
        | .ka => ({ S with fsm := .resp, status := .sent, rvalue := 0 }, Requests.zero)
        | .chg =>
          if S.op = .change then ({ S with fsm := .resp, status := .sent, rvalue := 0 }, Requests.zero)
          else ({ S with frame := .qry, idx := 0 }, { Requests.zero with clr := some (S.c, S.a), wclr := true })
        | .qry => ({ S with fsm := .wait, timer := S.t }, Requests.zero)
      else ({ S with idx := S.idx + 1 }, Requests.zero)
    else (S, Requests.zero)
  | .wait =>
    match S.wake, tblRead S.table (S.c, S.a) with
    | true, some x =>
      ({ S with
          fsm := .resp, rvalue := x,
          status := if S.op = .query then .value else if x = S.v then .confirmed else .mismatch },
        { Requests.zero with clr := some (S.c, S.a), wclr := true })
    | _, _ =>
      if S.timer = 0 then ({ S with fsm := .resp, status := .timeout, rvalue := 0 }, Requests.zero)
      else
        ({ S with timer := if I.tick then S.timer - 1 else S.timer },
          { Requests.zero with wclr := S.wake })
  | .resp => (if I.rsp_ready then { S with fsm := .idle } else S, Requests.zero)

/-- R150, the listener path, on the state the caller path has left and the requests so far. It reads only the
sampled state `S`. -/
def refListener (S : Block) (I : Inputs) (N : Block) (R : Requests) : Block × Requests :=
  let N : Block := { N with dec_valid := false }
  if I.rx_valid then
    let buf := if S.rx_len.toNat < 20 then S.rx_buf ++ [I.rx_data] else S.rx_buf
    let n := min (S.rx_len.toNat + 1) 21
    if I.rx_last then
      let m := decodeCapped buf n
      let N : Block :=
        { N with
          dec_valid := true, dec_kind := kindOf m, dec_channel := (fieldsOrZero m).1,
          dec_param := (fieldsOrZero m).2.1, dec_value := (fieldsOrZero m).2.2, rx_buf := [], rx_len := 0 }
      match m with
      | .replyParameter ch p x => (N, { R with ins := some ((ch, p), x), wset := true })
      | .keepalive => (N, R)
      | .changeParameter _ _ _ => (N, R)
      | .queryParameter _ _ => (N, R)
      | .unknown _ => (N, R)
    else ({ N with rx_buf := buf, rx_len := BitVec.ofNat 5 n }, R)
  else (N, R)

/-- R150, the shared state commit (`20_memory.md` R56): the clear first, the insert second. -/
def refCommit (S N : Block) (R : Requests) : Block :=
  let T1 := match R.clr with
    | some k => tblClear S.table k
    | none => S.table
  let T2 := match R.ins with
    | some (k, x) => tblWrite T1 k x
    | none => T1
  { N with table := T2, wake := (S.wake && !R.wclr) || R.wset }

/-- `step(S, I)` (R150). -/
def refStep (S : Block) (I : Inputs) : Block :=
  if I.rst then Block.reset
  else
    let caller := refCaller S I
    let listener := refListener S I caller.1 caller.2
    refCommit S listener.1 listener.2

end Sys2Proof.Machine
end

