-- ==== Sys2Proof/Safety.lean ====
section
/-! DEFINITION. What counts as a safe state and a safe run: the legal values of `10_state.md` R39, the invariant of
R38, the agreement of the sequencing and result registers, and runs over input vectors. -/

namespace Sys2Proof.Machine

/-- The legal values of R39 and R30 that the types do not already give: the inbound count and buffer agree, and
`idx` is inside its frame while `fsm` is SEND. -/
def Block.legal (b : Block) : Prop :=
  b.rx_len.toNat ≤ Config.rxLenSat ∧ b.rx_buf.length = min b.rx_len.toNat Config.rxCap ∧
    (b.fsm = .send → b.idx.toNat < frameLen b.frame)

/-- A query is on its way or awaited: WAIT, or SEND of the QueryParameter frame (R38). -/
def Block.awaiting (b : Block) : Prop := b.fsm = .wait ∨ (b.fsm = .send ∧ b.frame = .qry)

/-- The invariant of R38: while a query is awaited, an entry at its key has raised `wake`. -/
def Block.wakeCovers (b : Block) : Prop :=
  b.awaiting → (tblRead b.table b.key).isSome → b.wake = true

/-- The frame in SEND and the wait belong to the command in progress (R83, R130, R136). -/
def Block.sequenced (b : Block) : Prop :=
  match b.fsm with
  | .idle => True
  | .send =>
    match b.frame with
    | .ka => b.op = .keepalive
    | .chg => b.op = .change ∨ b.op = .setConfirm
    | .qry => b.op = .query ∨ b.op = .setConfirm
  | .wait => b.frame = .qry ∧ (b.op = .query ∨ b.op = .setConfirm)
  | .resp => True

/-- The result presented in RESP is one that `60_exceptions.md` R171 gives for the operation. -/
def Block.resultFits (b : Block) : Prop :=
  b.fsm = .resp →
    match b.status with
    | .sent => (b.op = .keepalive ∨ b.op = .change) ∧ b.rvalue = 0
    | .value => b.op = .query
    | .timeout => (b.op = .query ∨ b.op = .setConfirm) ∧ b.rvalue = 0
    | .confirmed => b.op = .setConfirm ∧ b.rvalue = b.v
    | .mismatch => b.op = .setConfirm ∧ b.rvalue ≠ b.v

/-- The decoded-message registers hold 0 where the kind has no such field (R31). -/
def Block.decodedFits (b : Block) : Prop :=
  match b.dec_kind with
  | .keepalive => b.dec_channel = 0 ∧ b.dec_param = 0 ∧ b.dec_value = 0
  | .change => True
  | .query => b.dec_value = 0
  | .reply => True
  | .unknown => b.dec_channel = 0 ∧ b.dec_param = 0 ∧ b.dec_value = 0

/-- A safe block: all of the above, and the table in its canonical form. -/
structure Block.Inv (b : Block) : Prop where
  legal : b.legal
  wakeCovers : b.wakeCovers
  sequenced : b.sequenced
  resultFits : b.resultFits
  decodedFits : b.decodedFits
  tableWf : Memory.wf b.table = true

/-! ### Views of the block, and what an edge commits -/

/-- The elements only the caller path writes (`60_exceptions.md` R173, R179). -/
structure CallerRegs where
  fsm : Fsm
  op : Op
  a : Addr
  c : Channel
  v : Value
  t : Ticks
  frame : FrameSel
  idx : BitVec 5
  timer : Ticks
  status : Status
  rvalue : Value
deriving DecidableEq, Repr

/-- The elements only the listener path writes (R173, R179). -/
structure ListenerRegs where
  rx_buf : List Byte
  rx_len : BitVec 5
  dec_valid : Bool
  dec_kind : DecKind
  dec_channel : Channel
  dec_param : Addr
  dec_value : Value
deriving DecidableEq, Repr

/-- The caller path's elements of a block. -/
def Block.caller (b : Block) : CallerRegs where
  fsm := b.fsm
  op := b.op
  a := b.a
  c := b.c
  v := b.v
  t := b.t
  frame := b.frame
  idx := b.idx
  timer := b.timer
  status := b.status
  rvalue := b.rvalue

/-- The listener path's elements of a block. -/
def Block.listener (b : Block) : ListenerRegs where
  rx_buf := b.rx_buf
  rx_len := b.rx_len
  dec_valid := b.dec_valid
  dec_kind := b.dec_kind
  dec_channel := b.dec_channel
  dec_param := b.dec_param
  dec_value := b.dec_value

/-- The message that the vector completes on the RX port, if it completes one (`41_session.md` R146). -/
def Block.completed (b : Block) (I : Inputs) : Option Msg :=
  if I.completesFrame then some (b.rxMessage I.rx_data) else none

/-- The insert that the listener path requests at this edge, if it requests one (`41_session.md` R147). -/
def Block.insertAsked (b : Block) (I : Inputs) : Option (Key × Value) :=
  match b.completed I with
  | some (.replyParameter ch p x) => some ((ch, p), x)
  | some .keepalive => none
  | some (.changeParameter _ _ _) => none
  | some (.queryParameter _ _) => none
  | some (.unknown _) => none
  | none => none

/-- The entry at a key once a clear, if one is asked for, and then an insert, if one is asked for, have been done
(`20_memory.md` R56). -/
def entryAfter (old : Option Value) (clr : Option Key) (ins : Option (Key × Value)) (k : Key) : Option Value :=
  match ins with
  | some (k', x) => if k' = k then some x else if clr = some k then none else old
  | none => if clr = some k then none else old

/-- From `b` to `t` the shared elements change by the caller path's requests `clr` and `wclr` and the listener path's
own requests of this edge, every key read through `tblRead` (`20_memory.md` R56). -/
def Block.commits (b t : Block) (I : Inputs) (clr : Option Key) (wclr : Bool) : Prop :=
  (∀ k, tblRead t.table k = entryAfter (tblRead b.table k) clr (b.insertAsked I) k) ∧
    t.wake = ((b.wake && !wclr) || (b.insertAsked I).isSome)

/-- The vector completes a Reply for this key (`41_session.md` R147). -/
def Block.repliesFor (b : Block) (I : Inputs) (k : Key) : Prop :=
  ∃ x, b.completed I = some (.replyParameter k.1 k.2 x)

/-- The two vectors agree on every port but the RX port. -/
def Inputs.sameButRx (I J : Inputs) : Prop :=
  J = { I with rx_valid := J.rx_valid, rx_data := J.rx_data, rx_last := J.rx_last }

/-- The two vectors agree on every port but the command port. -/
def Inputs.sameButCommand (I J : Inputs) : Prop :=
  J = { I with
    cmd_valid := J.cmd_valid, cmd_op := J.cmd_op, cmd_addr := J.cmd_addr, cmd_channel := J.cmd_channel,
    cmd_value := J.cmd_value, cmd_timeout := J.cmd_timeout }

/-- Two blocks that a caller cannot tell apart: the caller path's elements agree, and while a query is awaited the
entries at its key do (R196). -/
def Block.alike (b b' : Block) : Prop :=
  b.caller = b'.caller ∧ b.wakeCovers ∧ b'.wakeCovers ∧
    (b.awaiting → tblRead b.table b.key = tblRead b'.table b'.key)

/-! ### Runs over input vectors -/

/-- No vector of the run completes a Reply for this key. -/
def quietFor (k : Key) : Block → List Inputs → Prop
  | _, [] => True
  | b, I :: rest => ¬ b.repliesFor I k ∧ quietFor k (refStep b I) rest

/-- No vector asserts reset. -/
def unreset (Is : List Inputs) : Prop := ∀ I ∈ Is, I.rst = false

/-- The number of vectors with `tick` = 1. -/
def ticksIn (Is : List Inputs) : Nat := Is.countP (·.tick)

/-- The number of vectors with `tx_ready` = 1. -/
def readiesIn (Is : List Inputs) : Nat := Is.countP (·.tx_ready)

/-- The vectors present this frame, one byte each, `rx_last` on the last one only (`60_exceptions.md` R178). -/
def presents : Frame → List Inputs → Prop
  | [], Is => Is = []
  | b :: rest, Is =>
    ∃ I Js, Is = I :: Js ∧ I.rx_valid = true ∧ I.rx_data = b ∧ I.rx_last = rest.isEmpty ∧ presents rest Js

/-- The byte that the TX port moves at the edge after `i` edges of the machine, with its `tx_last`, if it moves one. -/
def txMoved (s : State) (i : Nat) : Option (Byte × Bool) :=
  match Host.Core.run Sys2Proof.core i s with
  | .next t => t.block.txTransfer t.input
  | .fault _ => none
  | .refused _ => none

/-- The bytes that the TX port moves at the first `n` edges of the machine, each with its `tx_last`
(`20_memory.md` R62). -/
def txTrace (n : Nat) (s : State) : List (Byte × Bool) := (List.range n).filterMap (txMoved s)

/-- The frame as the TX port marks it: `tx_last` on its last byte only (`30_encoding.md` R86). -/
def markedFrame : Frame → List (Byte × Bool)
  | [] => []
  | b :: rest => (b, rest.isEmpty) :: markedFrame rest

end Sys2Proof.Machine
end

