-- ==== Sys2Proof/Certificates/Slice0/Obligations.lean ====
section
/-! DEFINITION. The statements for the provers. Each docstring names the rule of `spec/` it formalises. A statement about
`exec` is about one instruction at its own edge; a statement about `step` is about one rising edge with all that
happens at it; a statement about `Host.Core.run Sys2Proof.core` is about consecutive edges. -/

open Sys2Proof Sys2Proof.Machine

/-! ### The Codec -/

/-- The words of the spec's own examples (R108 to R112) and the four selectors (R83) decode to the instructions they
stand for. -/
def Obligations.SpecExamplesDecode : Prop :=
  decodePacket (.frame [0xF0, 0x43, 0x10, 0x3E, 0x14, 0x00, 0x04, 0x02, 0xF7]) = .keepalive ∧
  decodePacket (.frame [0xF0, 0x43, 0x10, 0x3E, 0x14, 0x01, 0x01, 0x00, 0x24, 0x34, 0x00, 0x00, 0x02,
    0x7F, 0x7F, 0x7F, 0x7F, 0x7F, 0xF7]) = .changeParameter 2 4660 (BitVec.ofInt 32 (-1)) ∧
  decodePacket (.frame [0xF0, 0x43, 0x30, 0x3E, 0x14, 0x01, 0x04, 0x02, 0x00, 0x7F, 0x7F, 0x00, 0x00, 0x7F,
    0xF7]) = .queryParameter 127 16383 ∧
  decodePacket (.frame [0xF0, 0x43, 0x10, 0x3E, 0x14, 0x01, 0x04, 0x02, 0x00, 0x00, 0x07, 0x00, 0x00, 0x00,
    0x00, 0x00, 0x00, 0x00, 0x67, 0xF7]) = .replyParameter 0 7 103 ∧
  decodePacket (.frame [0xF0, 0x43, 0x10, 0x3E, 0x14, 0x00, 0x04, 0x02, 0x00]) =
    .unknown [0xF0, 0x43, 0x10, 0x3E, 0x14, 0x00, 0x04, 0x02, 0x00] ∧
  decodePacket (.command ⟨0b00, 1, 2, 3, 4⟩) = .cmdKeepalive 1 2 3 4 ∧
  decodePacket (.command ⟨0b01, 1, 2, 3, 4⟩) = .cmdChange 1 2 3 4 ∧
  decodePacket (.command ⟨0b10, 1, 2, 3, 4⟩) = .cmdQuery 1 2 3 4 ∧
  decodePacket (.command ⟨0b11, 1, 2, 3, 4⟩) = .cmdSetConfirm 1 2 3 4

/-- R113, and R83 for the commands: for every value of the fill bytes, every well-formed instruction is decoded back
from what the encoders make of it; the four laws of R113 are spelled out. -/
def Obligations.EncodedInstructionsDecodeBack : Prop :=
  ∀ fl : Config.Fills,
    (∀ i : Instr, i.wellFormed = true → decodePacket (encode fl i) = i) ∧
    (∀ (p : Addr) (v : Value) (c : Channel),
      decode (encodeChangeParameter fl p v c) = .changeParameter c p v ∧
      decode (encodeQueryParameter fl p c) = .queryParameter c p ∧
      decode encodeKeepalive = .keepalive ∧
      decode (buildReplyFrame c p v) = .replyParameter c p v)

/-- R76 and R77: a frame is Unknown exactly when it has none of the four shapes (literals and lengths as R72 to R75
write them); no two shapes match one frame; a Reply cut or extended by one byte is Unknown. -/
def Obligations.ShapesAreExactAndDisjoint : Prop :=
  (∀ f : Frame,
    decode f = .unknown f ↔
      ¬ (f = [0xF0, 0x43, 0x10, 0x3E, 0x14, 0x00, 0x04, 0x02, 0xF7] ∨
        (f.length = 19 ∧ f.take 8 = [0xF0, 0x43, 0x10, 0x3E, 0x14, 0x01, 0x01, 0x00]) ∨
        (f.length = 15 ∧ f.take 9 = [0xF0, 0x43, 0x30, 0x3E, 0x14, 0x01, 0x04, 0x02, 0x00]) ∨
        (f.length = 20 ∧ f.take 9 = [0xF0, 0x43, 0x10, 0x3E, 0x14, 0x01, 0x04, 0x02, 0x00]))) ∧
  (∀ f : Frame,
    [isKeepalive f, isChange f, isQuery f, isReply f].countP id ≤ 1) ∧
  [Wire.keepaliveLen, Wire.changeLen, Wire.queryLen, Wire.replyLen] = [9, 19, 15, 20] ∧
  (∀ (f : Frame) (b : Byte), isReply f = true →
    (∃ ch p x, decode f = .replyParameter ch p x) ∧
      decode f.dropLast = .unknown f.dropLast ∧ decode (f ++ [b]) = .unknown (f ++ [b]))

/-- R100: each group is `(v >> 7i) & 0x7F` with an arithmetic shift of the signed value, every group is at most 127,
and the corner cases and the example are as the rule lists them. -/
def Obligations.PackValueIsArithmeticShift : Prop :=
  (∀ v : Value,
    ((packValue v).g4.toNat : Int) = v.toInt / 128 ^ 4 % 128 ∧
    ((packValue v).g3.toNat : Int) = v.toInt / 128 ^ 3 % 128 ∧
    ((packValue v).g2.toNat : Int) = v.toInt / 128 ^ 2 % 128 ∧
    ((packValue v).g1.toNat : Int) = v.toInt / 128 % 128 ∧
    ((packValue v).g0.toNat : Int) = v.toInt % 128) ∧
  (packValue 0).toList = [0x00, 0x00, 0x00, 0x00, 0x00] ∧
  (packValue (BitVec.ofInt 32 (-1))).toList = [0x7F, 0x7F, 0x7F, 0x7F, 0x7F] ∧
  (packValue (BitVec.ofInt 32 2147483647)).toList = [0x07, 0x7F, 0x7F, 0x7F, 0x7F] ∧
  (packValue (BitVec.ofInt 32 (-2147483648))).toList = [0x78, 0x00, 0x00, 0x00, 0x00] ∧
  (packValue 103).toList = [0x00, 0x00, 0x00, 0x00, 0x67]

/-- R101: the value is the low 32 bits of the accumulator of the masked bytes, read as an i32, whatever the bytes. -/
def Obligations.UnpackValueTruncates : Prop :=
  ∀ g : Groups,
    (unpackValue g).toInt =
      (let u : Int :=
        ((g.g4.toNat % 128 * 128 ^ 4 + g.g3.toNat % 128 * 128 ^ 3 + g.g2.toNat % 128 * 128 ^ 2 +
          g.g1.toNat % 128 * 128 + g.g0.toNat % 128) % 2 ^ 32 : Nat)
       if u ≥ 2 ^ 31 then u - 2 ^ 32 else u)

/-- R109, R110 and R111: what a frame of each shape decodes to, each field computed from its bytes at the offsets of
R88, with bit 7 of every field byte masked. -/
def Obligations.FieldsStandAtTheirOffsets : Prop :=
  ∀ f : Frame,
    (isChange f = true → ∃ ch p x, decode f = .changeParameter ch p x ∧
      ch.toNat = (byteAt f 12).toNat % 128 ∧
      p.toNat = (byteAt f 8).toNat % 128 * 128 + (byteAt f 9).toNat % 128 ∧
      x = unpackValue ⟨byteAt f 13, byteAt f 14, byteAt f 15, byteAt f 16, byteAt f 17⟩) ∧
    (isQuery f = true → ∃ ch p, decode f = .queryParameter ch p ∧
      ch.toNat = (byteAt f 13).toNat % 128 ∧
      p.toNat = (byteAt f 9).toNat % 128 * 128 + (byteAt f 10).toNat % 128) ∧
    (isReply f = true → ∃ ch p x, decode f = .replyParameter ch p x ∧
      ch.toNat = (byteAt f 13).toNat % 128 ∧
      p.toNat = (byteAt f 9).toNat % 128 * 128 + (byteAt f 10).toNat % 128 ∧
      x = unpackValue ⟨byteAt f 14, byteAt f 15, byteAt f 16, byteAt f 17, byteAt f 18⟩)

/-- R82 and R88: bit 7 of a field byte and the bytes the source does not name change neither the shape nor any
decoded field. -/
def Obligations.DecodeIgnoresBitSevenAndUnnamedBytes : Prop :=
  ∀ (f : Frame) (b : Byte),
    (isChange f = true →
      (∀ i ∈ [10, 11, 18], decode (f.set i b) = decode f) ∧
      (∀ i ∈ [8, 9, 12, 13, 14, 15, 16, 17], decode (f.set i (byteAt f i ^^^ 0x80)) = decode f)) ∧
    (isQuery f = true →
      (∀ i ∈ [11, 12, 14], decode (f.set i b) = decode f) ∧
      (∀ i ∈ [9, 10, 13], decode (f.set i (byteAt f i ^^^ 0x80)) = decode f)) ∧
    (isReply f = true →
      (∀ i ∈ [11, 12, 19], decode (f.set i b) = decode f) ∧
      (∀ i ∈ [9, 10, 13, 14, 15, 16, 17, 18], decode (f.set i (byteAt f i ^^^ 0x80)) = decode f))

/-- R112: the decoder over the first 20 bytes and the saturated length shows the same kind and the same fields as the
decoder over the whole frame. -/
def Obligations.CappedDecoderShowsTheSame : Prop :=
  ∀ f : Frame,
    kindOf (decodeCapped (f.take 20) (min f.length 21)) = kindOf (decode f) ∧
    fieldsOrZero (decodeCapped (f.take 20) (min f.length 21)) = fieldsOrZero (decode f)

/-! ### The instructions, each at its own edge -/

/-- R146 and R148, with R31 for the fields: a complete Keepalive, ChangeParameter, QueryParameter or Unknown frame
always executes; it writes the `dec_*` registers and empties the inbound buffer, and everything else, the table and
`wake` among it, is as before. -/
def Obligations.DroppedFramesExecute : Prop :=
  ∀ (s : State) (ch : Channel) (p : Addr) (x : Value) (raw : Frame),
    exec .keepalive s = .next { s with block := { s.block with
      dec_valid := true, dec_kind := .keepalive, dec_channel := 0, dec_param := 0, dec_value := 0,
      rx_buf := [], rx_len := 0 } } ∧
    exec (.changeParameter ch p x) s = .next { s with block := { s.block with
      dec_valid := true, dec_kind := .change, dec_channel := ch, dec_param := p, dec_value := x,
      rx_buf := [], rx_len := 0 } } ∧
    exec (.queryParameter ch p) s = .next { s with block := { s.block with
      dec_valid := true, dec_kind := .query, dec_channel := ch, dec_param := p, dec_value := 0,
      rx_buf := [], rx_len := 0 } } ∧
    exec (.unknown raw) s = .next { s with block := { s.block with
      dec_valid := true, dec_kind := .unknown, dec_channel := 0, dec_param := 0, dec_value := 0,
      rx_buf := [], rx_len := 0 } }

/-- R147, with R52 and R57: a complete ReplyParameter always executes; its value is read back at its key, every other
key reads as before, `wake` is up, and but for the `dec_*` registers and the inbound buffer nothing else changes. -/
def Obligations.ReplyFrameExecutes : Prop :=
  ∀ (s : State) (ch : Channel) (p : Addr) (x : Value),
    ∃ t : State, exec (.replyParameter ch p x) s = .next t ∧
      tblRead t.block.table (ch, p) = some x ∧
      (∀ k, k ≠ (ch, p) → tblRead t.block.table k = tblRead s.block.table k) ∧
      t = { s with block := { s.block with
        dec_valid := true, dec_kind := .reply, dec_channel := ch, dec_param := p, dec_value := x,
        rx_buf := [], rx_len := 0, wake := true, table := t.block.table } }

/-- R130 to R132 and R134: in IDLE a KEEPALIVE, CHANGE or SET_CONFIRM command executes: all four operand ports are
latched, the frame starts at byte 0, `fsm` is SEND, and nothing else changes: every key of the table reads as before
and `wake` is as it was. -/
def Obligations.IdleCommandsExecute : Prop :=
  ∀ (s : State) (a : Addr) (c : Channel) (v : Value) (t : Ticks), s.block.fsm = .idle →
    exec (.cmdKeepalive a c v t) s = .next { s with block := { s.block with
      op := .keepalive, a := a, c := c, v := v, t := t, idx := 0, fsm := .send, frame := .ka } } ∧
    exec (.cmdChange a c v t) s = .next { s with block := { s.block with
      op := .change, a := a, c := c, v := v, t := t, idx := 0, fsm := .send, frame := .chg } } ∧
    exec (.cmdSetConfirm a c v t) s = .next { s with block := { s.block with
      op := .setConfirm, a := a, c := c, v := v, t := t, idx := 0, fsm := .send, frame := .chg } }

/-- R130 and R137: in IDLE a QUERY command executes: it latches as the others do, the offered key reads `none`, every
other key reads as before, `wake` is clear, and nothing else changes. -/
def Obligations.IdleQueryCommandExecutes : Prop :=
  ∀ (s : State) (a : Addr) (c : Channel) (v : Value) (t : Ticks), s.block.fsm = .idle →
    ∃ u : State, exec (.cmdQuery a c v t) s = .next u ∧
      tblRead u.block.table (c, a) = none ∧
      (∀ k, k ≠ (c, a) → tblRead u.block.table k = tblRead s.block.table k) ∧
      u = { s with block := { s.block with
        op := .query, a := a, c := c, v := v, t := t, idx := 0, fsm := .send, frame := .qry,
        wake := false, table := u.block.table } }

/-- R130 outside IDLE, which the model reads as: a command executed there changes nothing at all (log 5). -/
def Obligations.BusyBlockLeavesCommandOffered : Prop :=
  ∀ (s : State) (a : Addr) (c : Channel) (v : Value) (t : Ticks), s.block.fsm ≠ .idle →
    exec (.cmdKeepalive a c v t) s = .next s ∧ exec (.cmdChange a c v t) s = .next s ∧
    exec (.cmdQuery a c v t) s = .next s ∧ exec (.cmdSetConfirm a c v t) s = .next s

/-! ### The step -/

/-- A step runs the decoded instruction: the command word offered in IDLE, alone; the frame that the arriving byte
completes, alone; and, where both happen at one edge, the command first and the frame second. That an instruction is
executed at its accepting or completing edge is the model's choice (DESIGN CHOICE, log 1); that the command goes first is
the model's inference from the commit order of `20_memory.md` section 1 (DEDUCED, log 4). Around `exec` the step uses up
the input vector and counts the edge (the model's own fields, log 2) and, where no frame is complete, clears
`dec_valid`. -/
def Obligations.StepRunsTheDecodedInstruction : Prop :=
  ∀ (s u t : State), s.input.rst = false → s.block.fsm = .idle →
    (s.input.cmd_valid = true → s.input.rx_valid = false →
      exec (decodeCommand s.input.commandWord) s = .next t →
      step s = .next { t with
        block := { t.block with dec_valid := false }, script := s.script.tail, edge := s.edge + 1 }) ∧
    (s.input.cmd_valid = false → s.input.rx_valid = true → s.input.rx_last = true →
      exec (s.block.rxMessage s.input.rx_data).toInstr s = .next t →
      step s = .next { t with script := s.script.tail, edge := s.edge + 1 }) ∧
    (s.input.cmd_valid = true → s.input.rx_valid = true → s.input.rx_last = true →
      exec (decodeCommand s.input.commandWord) s = .next u →
      exec (s.block.rxMessage s.input.rx_data).toInstr u = .next t →
      step s = .next { t with script := s.script.tail, edge := s.edge + 1 })

/-- The bytes and words of an instruction, presented to the ports of a block in IDLE, are decoded and run by the very
next step, by the model's own choices of when an instruction is executed and how it is presented (log 1, log 3):
every well-formed instruction but the empty frame, which the RX port cannot deliver (D39). -/
def Obligations.PresentedInstructionRunsNext : Prop :=
  ∀ (s : State) (fl : Config.Fills) (i : Instr), s.block.fsm = .idle → i.wellFormed = true →
    i ≠ .unknown [] →
    ∃ t : State, exec i (s.present (encode fl i)) = .next t ∧
      step (s.present (encode fl i)) = .next { t with
        block := { t.block with dec_valid := match encode fl i with
          | .frame _ => true
          | .command _ => false },
        script := s.script.tail, edge := s.edge + 1 }

/-- R150: the step that the instructions' meanings make is the step function the spec writes out, at every state and
every input vector. -/
def Obligations.StepRefinesTheSpecFunction : Prop :=
  ∀ s : State,
    step s = .next { block := refStep s.block s.input, script := s.script.tail, edge := s.edge + 1 }

/-- R170: no instruction and no step ends in a fault, a trap or a refusal, in any state at all. -/
def Obligations.NothingTrapsOrStops : Prop :=
  (∀ s : State, ∃ t, step s = .next t) ∧ (∀ (i : Instr) (s : State), ∃ t, exec i s = .next t)

/-- R190: at an edge with `rst` = 1 every element takes its reset value, whatever the state (the power-on state of
R193 among them) and the other inputs; no command is accepted, no TX byte moves, no response is taken; and the
machine's reset state holds those values. -/
def Obligations.ResetEdgeSetsEveryElement : Prop :=
  (∀ s : State, s.input.rst = true →
    step s = .next {
      block := {
        fsm := .idle, op := .keepalive, a := 0, c := 0, v := 0, t := 0, frame := .ka, idx := 0, timer := 0,
        status := .sent, rvalue := 0, wake := false, table := [], rx_buf := [], rx_len := 0,
        dec_valid := false, dec_kind := .keepalive, dec_channel := 0, dec_param := 0, dec_value := 0 },
      script := s.script.tail, edge := s.edge + 1 } ∧
    s.block.cmdAccepted s.input = false ∧ s.block.txTransfer s.input = none ∧
    s.block.rspTaken s.input = false) ∧
  (∀ k : Key, tblRead State.reset.block.table k = none) ∧
  State.reset.block = {
    fsm := .idle, op := .keepalive, a := 0, c := 0, v := 0, t := 0, frame := .ka, idx := 0, timer := 0,
    status := .sent, rvalue := 0, wake := false, table := [], rx_buf := [], rx_len := 0,
    dec_valid := false, dec_kind := .keepalive, dec_channel := 0, dec_param := 0, dec_value := 0 }

/-! ### The caller path, edge by edge, whatever the listener path does at the same edge -/

/-- R130: in IDLE an offered command is accepted as the rule's case list says; with none offered the caller path keeps
its elements. The table and `wake` change by QUERY's query-start actions and the listener's own insert. -/
def Obligations.AcceptanceEdge : Prop :=
  ∀ s : State, s.input.rst = false → s.block.fsm = .idle →
    ∃ t : State, step s = .next t ∧
      (s.input.cmd_valid = false → t.block.caller = s.block.caller ∧ s.block.commits t.block s.input none false) ∧
      (s.input.cmd_valid = true →
        t.block.caller = { s.block.caller with
          op := opOfBits s.input.cmd_op, a := s.input.cmd_addr, c := s.input.cmd_channel,
          v := s.input.cmd_value, t := s.input.cmd_timeout, idx := 0, fsm := .send,
          frame := match opOfBits s.input.cmd_op with
            | .keepalive => .ka
            | .change => .chg
            | .setConfirm => .chg
            | .query => .qry } ∧
        (s.input.cmd_op = 0b10#2 →
          s.block.commits t.block s.input (some (s.input.cmd_channel, s.input.cmd_addr)) true) ∧
        (s.input.cmd_op ≠ 0b10#2 → s.block.commits t.block s.input none false))

/-- R130: outside IDLE `cmd_ready` is 0 and nothing on the command port has any effect on the step. -/
def Obligations.CommandPortIgnoredWhileBusy : Prop :=
  ∀ s s' t t' : State, s.block = s'.block → s.block.fsm ≠ .idle → s.input.sameButCommand s'.input →
    step s = .next t → step s' = .next t' →
    t.block = t'.block ∧ (s.block.outputs s.input.rst).cmd_ready = false

/-- R135: in SEND the TX port offers byte `idx` of the frame; a byte that is not the last moves on with `tx_ready` = 1
and `idx` counts it; with `tx_ready` = 0 the caller path changes nothing, the timer included. -/
def Obligations.SendByteEdge : Prop :=
  ∀ s : State, s.input.rst = false → s.block.fsm = .send →
    s.block.idx.toNat < frameLen s.block.frame →
    (s.block.outputs false).tx_data =
      byteAt (frameBytes s.block.frame s.block.a s.block.c s.block.v) s.block.idx.toNat ∧
    ∃ t : State, step s = .next t ∧
      (s.input.tx_ready = false →
        s.block.txTransfer s.input = none ∧ t.block.caller = s.block.caller ∧
          s.block.commits t.block s.input none false) ∧
      (s.input.tx_ready = true → s.block.idx.toNat < frameLen s.block.frame - 1 →
        s.block.txTransfer s.input = some ((s.block.outputs false).tx_data, false) ∧
          t.block.caller = { s.block.caller with idx := t.block.idx } ∧
          t.block.idx.toNat = s.block.idx.toNat + 1 ∧ s.block.commits t.block s.input none false)

/-- R136: the last byte of a frame is transferred with `tx_last` = 1, and then each frame has its own continuation;
SET_CONFIRM's query-start actions take place at this edge. -/
def Obligations.SendFrameCompletionEdge : Prop :=
  ∀ s : State, s.input.rst = false → s.block.fsm = .send → s.input.tx_ready = true →
    s.block.idx.toNat = frameLen s.block.frame - 1 →
    s.block.txTransfer s.input = some ((s.block.outputs false).tx_data, true) ∧
    ∃ t : State, step s = .next t ∧
      (s.block.frame = .ka →
        t.block.caller = { s.block.caller with fsm := .resp, status := .sent, rvalue := 0 } ∧
          s.block.commits t.block s.input none false) ∧
      (s.block.frame = .chg → s.block.op = .change →
        t.block.caller = { s.block.caller with fsm := .resp, status := .sent, rvalue := 0 } ∧
          s.block.commits t.block s.input none false) ∧
      (s.block.frame = .chg → s.block.op ≠ .change →
        t.block.caller = { s.block.caller with frame := .qry, idx := 0 } ∧
          s.block.commits t.block s.input (some (s.block.c, s.block.a)) true) ∧
      (s.block.frame = .qry →
        t.block.caller = { s.block.caller with fsm := .wait, timer := s.block.t } ∧
          s.block.commits t.block s.input none false)

/-- R142 and R143: a WAIT that finds `wake` up and the entry `x` at the awaited key pops it and completes: VALUE for a
QUERY, CONFIRMED or MISMATCH for a SET_CONFIRM by equality of the 32 bits; the timer does not matter (D12). -/
def Obligations.WaitFindsItsEntry : Prop :=
  ∀ (s : State) (x : Value), s.input.rst = false → s.block.fsm = .wait → s.block.wake = true →
    tblRead s.block.table (s.block.c, s.block.a) = some x →
    ∃ t : State, step s = .next t ∧
      s.block.commits t.block s.input (some (s.block.c, s.block.a)) true ∧
      (s.block.op = .query →
        t.block.caller = { s.block.caller with fsm := .resp, status := .value, rvalue := x }) ∧
      (s.block.op = .setConfirm → x = s.block.v →
        t.block.caller = { s.block.caller with fsm := .resp, status := .confirmed, rvalue := x }) ∧
      (s.block.op = .setConfirm → x ≠ s.block.v →
        t.block.caller = { s.block.caller with fsm := .resp, status := .mismatch, rvalue := x })

/-- R141: a WAIT with no entry (`wake` down, or nothing at the awaited key) and a spent budget completes with TIMEOUT
and 0, and the caller path touches neither the table nor `wake`. -/
def Obligations.WaitTimesOut : Prop :=
  ∀ s : State, s.input.rst = false → s.block.fsm = .wait →
    (s.block.wake = false ∨ tblRead s.block.table (s.block.c, s.block.a) = none) → s.block.timer = 0 →
    ∃ t : State, step s = .next t ∧
      t.block.caller = { s.block.caller with fsm := .resp, status := .timeout, rvalue := 0 } ∧
      s.block.commits t.block s.input none false

/-- R139 and R140: a WAIT with no entry and budget left keeps waiting: a `wake` it examined is cleared, and the timer
counts the edge exactly when `tick` = 1, whether `wake` was up or not; it does not wrap. -/
def Obligations.WaitRetriesOnRemainingBudget : Prop :=
  ∀ s : State, s.input.rst = false → s.block.fsm = .wait →
    (s.block.wake = false ∨ tblRead s.block.table (s.block.c, s.block.a) = none) → s.block.timer ≠ 0 →
    ∃ t : State, step s = .next t ∧
      t.block.caller = { s.block.caller with timer := t.block.timer } ∧
      (s.input.tick = true → t.block.timer.toNat + 1 = s.block.timer.toNat) ∧
      (s.input.tick = false → t.block.timer = s.block.timer) ∧
      s.block.commits t.block s.input none s.block.wake

/-- R144: in RESP the result is held on the response port until `rsp_ready` = 1, and then the block is in IDLE with
the result registers as they were. -/
def Obligations.ResponseHandshakeEdge : Prop :=
  ∀ s : State, s.input.rst = false → s.block.fsm = .resp →
    (s.block.outputs false).rsp_valid = true ∧
    ∃ t : State, step s = .next t ∧ s.block.commits t.block s.input none false ∧
      (s.input.rsp_ready = true →
        s.block.rspTaken s.input = true ∧ t.block.caller = { s.block.caller with fsm := .idle }) ∧
      (s.input.rsp_ready = false →
        s.block.rspTaken s.input = false ∧ t.block.caller = s.block.caller ∧
        (t.block.outputs false).rsp_valid = true ∧
        (t.block.outputs false).rsp_op = (s.block.outputs false).rsp_op ∧
        (t.block.outputs false).rsp_status = (s.block.outputs false).rsp_status ∧
        (t.block.outputs false).rsp_value = (s.block.outputs false).rsp_value ∧
        (t.block.outputs false).rsp_found = (s.block.outputs false).rsp_found ∧
        (t.block.outputs false).rsp_confirmed = (s.block.outputs false).rsp_confirmed)

/-! ### The listener path -/

/-- R145, R146 and R149, in any state of the caller path: without a byte only `dec_valid` falls; a byte that does not
end its frame is kept below 20 and counted up to 21; a byte that ends it shows the decoded message and empties the
buffer. -/
def Obligations.ListenerEdgeInEveryState : Prop :=
  ∀ s : State, s.input.rst = false →
    ∃ t : State, step s = .next t ∧
      (s.input.rx_valid = false → t.block.listener = { s.block.listener with dec_valid := false }) ∧
      (s.input.rx_valid = true →
        let buf := if s.block.rx_len.toNat < 20 then s.block.rx_buf ++ [s.input.rx_data] else s.block.rx_buf
        let n := min (s.block.rx_len.toNat + 1) 21
        let m := if 21 ≤ n then Msg.unknown buf else decode buf
        (s.input.rx_last = false →
          t.block.listener = { s.block.listener with
            rx_buf := buf, rx_len := t.block.rx_len, dec_valid := false } ∧ t.block.rx_len.toNat = n) ∧
        (s.input.rx_last = true →
          t.block.listener = {
            rx_buf := [], rx_len := 0, dec_valid := true, dec_kind := kindOf m,
            dec_channel := (fieldsOrZero m).1, dec_param := (fieldsOrZero m).2.1,
            dec_value := (fieldsOrZero m).2.2 }))

/-- R147: a Reply that completes at an edge is in the table after it and `wake` is up, whatever the state of the caller
path, whatever key it awaits and whatever it clears at that very edge (R56). -/
def Obligations.ReplyIsInsertedInEveryState : Prop :=
  ∀ (s : State) (ch : Channel) (p : Addr) (x : Value), s.input.rst = false → s.input.rx_valid = true →
    s.input.rx_last = true → s.block.rxMessage s.input.rx_data = .replyParameter ch p x →
    ∃ t : State, step s = .next t ∧ tblRead t.block.table (ch, p) = some x ∧ t.block.wake = true

/-- R148: a frame of any other kind has no effect but on the listener path's registers: the caller path, the table and
`wake` are as if the byte had not come. -/
def Obligations.OtherFramesAreDropped : Prop :=
  ∀ s s' t t' : State, s.block = s'.block → s'.input = { s.input with rx_valid := false } →
    s.input.completesFrame = true →
    (∀ ch p x, s.block.rxMessage s.input.rx_data ≠ .replyParameter ch p x) →
    step s = .next t → step s' = .next t' →
    t.block.caller = t'.block.caller ∧ t.block.table = t'.block.table ∧ t.block.wake = t'.block.wake

/-- R179: the listener path's registers after an edge depend on those before it and on `rst` and the RX port alone. -/
def Obligations.ListenerReadsOnlyItsPort : Prop :=
  ∀ s s' t t' : State, s.block.listener = s'.block.listener → s.input.rst = s'.input.rst →
    s.input.rx_valid = s'.input.rx_valid → s.input.rx_data = s'.input.rx_data →
    s.input.rx_last = s'.input.rx_last → step s = .next t → step s' = .next t' →
    t.block.listener = t'.block.listener

/-- R52 and R53, for an edge without reset: an entry that changes to a value was inserted by a Reply for its key; an
entry that goes away was cleared by a QUERY accepted for its key, by SET_CONFIRM's last Change byte, or by the pop of
the awaited key. -/
def Obligations.SoleWriterAndSoleRemover : Prop :=
  ∀ (s t : State) (k : Key), s.input.rst = false → step s = .next t →
    (∀ x, tblRead t.block.table k = some x → tblRead s.block.table k ≠ some x →
      s.block.completed s.input = some (.replyParameter k.1 k.2 x)) ∧
    (tblRead t.block.table k = none → tblRead s.block.table k ≠ none →
      (s.block.fsm = .idle ∧ s.input.cmd_valid = true ∧ s.input.cmd_op = 0b10#2 ∧
        k = (s.input.cmd_channel, s.input.cmd_addr)) ∨
      (s.block.fsm = .send ∧ s.block.frame = .chg ∧ s.block.op ≠ .change ∧ s.input.tx_ready = true ∧
        s.block.idx.toNat = 18 ∧ k = (s.block.c, s.block.a)) ∨
      (s.block.fsm = .wait ∧ s.block.wake = true ∧ k = (s.block.c, s.block.a) ∧
        (t.block.fsm = .resp ∧ some t.block.rvalue = tblRead s.block.table k)))

/-- R57: at an edge without reset `wake` is up afterwards exactly when a Reply was decoded at it, or it was up and the
caller path did not clear it: at the query-start actions, or on examining it in WAIT (but for the expiry, R141, log 20). -/
def Obligations.WakeSetAndClearRule : Prop :=
  ∀ s t : State, s.input.rst = false → step s = .next t →
    (t.block.wake = true ↔
      (∃ ch p x, s.block.completed s.input = some (.replyParameter ch p x)) ∨
      (s.block.wake = true ∧
        ¬ (s.block.fsm = .idle ∧ s.input.cmd_valid = true ∧ s.input.cmd_op = 0b10#2) ∧
        ¬ (s.block.fsm = .send ∧ s.input.tx_ready = true ∧ s.block.frame = .chg ∧ s.block.op ≠ .change ∧
          s.block.idx.toNat = 18) ∧
        ¬ (s.block.fsm = .wait ∧
          (tblRead s.block.table (s.block.c, s.block.a) ≠ none ∨ s.block.timer ≠ 0))))

/-- R22, R23 and R27, for an edge without reset: the operation and the operands change only at an acceptance, and the
result registers only on entering RESP. -/
def Obligations.OperandsAndResultsAreHeld : Prop :=
  ∀ s t : State, s.input.rst = false → step s = .next t →
    (s.block.cmdAccepted s.input = false →
      t.block.op = s.block.op ∧ t.block.a = s.block.a ∧ t.block.c = s.block.c ∧ t.block.v = s.block.v ∧
        t.block.t = s.block.t) ∧
    (¬ (s.block.fsm ≠ .resp ∧ t.block.fsm = .resp) →
      t.block.status = s.block.status ∧ t.block.rvalue = s.block.rvalue)

/-- R26 and R177, for an edge without reset: the timer is loaded from `t` when the last QueryParameter byte moves, counts
down by one on an edge that keeps waiting with `tick` = 1, and is frozen everywhere else; it never passes below 0. -/
def Obligations.TimerRule : Prop :=
  ∀ s t : State, s.input.rst = false → step s = .next t →
    (s.block.fsm = .send ∧ t.block.fsm = .wait → t.block.timer = s.block.t) ∧
    (s.block.fsm = .wait ∧ t.block.fsm = .wait ∧ s.input.tick = true →
      t.block.timer.toNat + 1 = s.block.timer.toNat) ∧
    (s.block.fsm = .wait ∧ (t.block.fsm ≠ .wait ∨ s.input.tick = false) → t.block.timer = s.block.timer) ∧
    (s.block.fsm ≠ .wait → t.block.fsm ≠ .wait → t.block.timer = s.block.timer)

/-! ### The output ports -/

/-- R191: while `rst` = 1 no valid or ready output is asserted, whatever the state, so no handshake takes place; the
other outputs are those of `rst` = 0. -/
def Obligations.OutputsDuringReset : Prop :=
  ∀ (b : Block) (I : Inputs),
    b.outputs true = { b.outputs false with
      cmd_ready := false, tx_valid := false, tx_last := false, rsp_valid := false } ∧
    b.cmdAccepted { I with rst := true } = false ∧ b.rspTaken { I with rst := true } = false ∧
    b.txTransfer { I with rst := true } = none

/-- R171: the code, `rsp_found` and `rsp_confirmed` of each result, and `rsp_value` is the result register. -/
def Obligations.ResultCodesOnTheResponsePort : Prop :=
  ∀ (b : Block) (rst : Bool),
    (b.outputs rst).rsp_value = b.rvalue ∧
    ((b.outputs rst).rsp_status, (b.outputs rst).rsp_found, (b.outputs rst).rsp_confirmed) =
      match b.status with
      | .sent => (0, false, false)
      | .value => (1, true, false)
      | .timeout => (2, false, false)
      | .confirmed => (3, true, true)
      | .mismatch => (4, true, false)

/-! ### Invariants -/

/-- R38: every edge keeps it: while a query is awaited, an entry at its key implies `wake`. -/
def Obligations.AwaitedEntryHasRaisedWake : Prop :=
  ∀ s t : State, s.block.wakeCovers → step s = .next t → t.block.wakeCovers

/-- The reset state is safe in the sense of `Block.Inv` (the legal values of R39, R38's invariant, and the agreement of
the sequencing, result and decoded registers with R171 and R31). -/
def Obligations.ResetStateIsSafe : Prop := State.reset.block.Inv

/-- R39, R38, R171 and R31 along every run: from every safe block, reached or not, whatever the inputs, every number of
edges ends in a safe block: legal values, the awaited entry covered by `wake`, a frame in SEND that belongs to the
command, a result in RESP that R171 gives for the operation (CONFIRMED only with the requested value, MISMATCH only
with another), 0 in the decoded fields a kind lacks, and the table in its canonical form (the model's own, log 13). -/
def Obligations.EveryRunStaysSafe : Prop :=
  ∀ (n : Nat) (s t : State), s.block.Inv → Host.Core.run Sys2Proof.core n s = .next t → t.block.Inv

/-! ### Runs of edges -/

/-- R196: cross-talk is invisible to the waiting caller. Two machines that the caller cannot tell apart stay so at an
edge where their vectors differ on the RX port alone, as long as neither completes a Reply for the key that is awaited
after the edge: status, result, timer and all other elements of the caller path agree. -/
def Obligations.CrossTalkIsInvisible : Prop :=
  ∀ s s' t t' : State, s.block.alike s'.block → s.input.sameButRx s'.input →
    step s = .next t → step s' = .next t' →
    (t.block.awaiting →
      ¬ s.block.repliesFor s.input t.block.key ∧ ¬ s'.block.repliesFor s'.input t.block.key) →
    t.block.alike t'.block

/-- R139, R140, R196 and R177: a wait with no entry lasts as long as its budget, whatever other frames arrive. Over
vectors without a Reply for the awaited key, of which those before the last hold fewer ticks than the timer, the block
stays in WAIT and the timer has lost exactly the ticks. One edge after the ticks have used it up, it is in RESP with
TIMEOUT and 0, the key still absent. -/
def Obligations.WaitLastsExactlyItsBudget : Prop :=
  ∀ (s : State) (Is rest : List Inputs), s.block.fsm = .wait →
    tblRead s.block.table s.block.key = none → s.script = Is ++ rest → unreset Is →
    quietFor s.block.key s.block Is →
    (Is = [] ∨ ticksIn Is.dropLast < s.block.timer.toNat) →
    ∃ t : State, Host.Core.run Sys2Proof.core Is.length s = .next t ∧ t.block.fsm = .wait ∧
      t.block.timer.toNat + ticksIn Is = s.block.timer.toNat ∧
      tblRead t.block.table s.block.key = none ∧
      (t.block.timer = 0 → ∀ (I : Inputs) (rest' : List Inputs), rest = I :: rest' → I.rst = false →
        ¬ t.block.repliesFor I s.block.key →
        ∃ u : State, Host.Core.run Sys2Proof.core (Is.length + 1) s = .next u ∧ u.block.fsm = .resp ∧
          u.block.status = .timeout ∧ u.block.rvalue = 0 ∧ tblRead u.block.table s.block.key = none)

/-- R55 and R37: of the table and `wake`, only the awaited key's entry ever reaches a port. Two machines with the same
inputs to come, whose caller and listener paths agree and whose tables agree at the awaited key alone, show the same
outputs after any number of edges. -/
def Obligations.OnlyTheAwaitedEntryReachesThePorts : Prop :=
  ∀ (n : Nat) (s s' t t' : State), s.script = s'.script → s.edge = s'.edge →
    s.block.alike s'.block → s.block.listener = s'.block.listener →
    Host.Core.run Sys2Proof.core n s = .next t → Host.Core.run Sys2Proof.core n s' = .next t' →
    ∀ rst : Bool, t.block.outputs rst = t'.block.outputs rst

/-- R142, R143 and the last row of R204: a Reply for the awaited key that completes while the block waits ends the wait
one edge later, with the Reply's value, the code of the operation, and the key popped. -/
def Obligations.AwaitedReplyEndsTheWait : Prop :=
  ∀ (s : State) (I J : Inputs) (rest : List Inputs) (x : Value), s.block.fsm = .wait →
    tblRead s.block.table s.block.key = none → s.block.timer ≠ 0 → s.script = I :: J :: rest →
    I.rst = false → J.rst = false →
    s.block.completed I = some (.replyParameter s.block.key.1 s.block.key.2 x) →
    ∃ t : State, Host.Core.run Sys2Proof.core 2 s = .next t ∧ t.block.fsm = .resp ∧ t.block.rvalue = x ∧
      tblRead t.block.table s.block.key = none ∧
      (s.block.op = .query → t.block.status = .value) ∧
      (s.block.op = .setConfirm → x = s.block.v → t.block.status = .confirmed) ∧
      (s.block.op = .setConfirm → x ≠ s.block.v → t.block.status = .mismatch)

/-- R131, R132 and R204: a KEEPALIVE or CHANGE command offered in IDLE and then given `tx_ready` = 1 at every edge is in
RESP with SENT and 0 after its 9 or 19 further edges, having waited for no reply and cleared no key. -/
def Obligations.FireAndForgetCommandsComplete : Prop :=
  ∀ (s : State) (I : Inputs) (Is rest : List Inputs), s.block.fsm = .idle → s.script = I :: (Is ++ rest) →
    I.rst = false → I.cmd_valid = true → unreset Is → readiesIn Is = Is.length →
    ((I.cmd_op = 0b00#2 ∧ Is.length = 9) ∨ (I.cmd_op = 0b01#2 ∧ Is.length = 19)) →
    ∃ t : State, Host.Core.run Sys2Proof.core (1 + Is.length) s = .next t ∧ t.block.fsm = .resp ∧
      t.block.status = .sent ∧ t.block.rvalue = 0 ∧ t.block.op = opOfBits I.cmd_op ∧
      (∀ k x, tblRead s.block.table k = some x → tblRead t.block.table k ≠ none)

/-- R133, R134, R136 and R204: a QUERY (15 further edges) or SET_CONFIRM (34) offered in IDLE and given `tx_ready` = 1 at
every edge is in WAIT for its own key with its whole timeout on the timer; and where no Reply for the key completed
on the way, the key is absent, whatever was in the table before. -/
def Obligations.WaitingCommandsReachWait : Prop :=
  ∀ (s : State) (I : Inputs) (Is rest : List Inputs), s.block.fsm = .idle → s.script = I :: (Is ++ rest) →
    I.rst = false → I.cmd_valid = true → unreset Is → readiesIn Is = Is.length →
    ((I.cmd_op = 0b10#2 ∧ Is.length = 15) ∨ (I.cmd_op = 0b11#2 ∧ Is.length = 34)) →
    ∃ t : State, Host.Core.run Sys2Proof.core (1 + Is.length) s = .next t ∧ t.block.fsm = .wait ∧
      t.block.op = opOfBits I.cmd_op ∧ t.block.key = (I.cmd_channel, I.cmd_addr) ∧
      t.block.v = I.cmd_value ∧ t.block.timer = I.cmd_timeout ∧
      (quietFor (I.cmd_channel, I.cmd_addr) s.block (I :: Is) →
        tblRead t.block.table (I.cmd_channel, I.cmd_addr) = none)

/-- R62, R86, R135 and R200: however the transport stalls, what the machine's TX port moves along its run from the
start of a frame is that frame's own bytes in order, as many as `tx_ready` asked for, with `tx_last` on the last byte
and no other. -/
def Obligations.TransmissionIsTheFrameUnderAnyStall : Prop :=
  ∀ (s : State) (Is rest : List Inputs), s.block.fsm = .send → s.block.idx = 0 → s.script = Is ++ rest → unreset Is →
    readiesIn Is ≤ frameLen s.block.frame →
    (∃ t : State, Host.Core.run Sys2Proof.core Is.length s = .next t) ∧
      txTrace Is.length s =
        (markedFrame (frameBytes s.block.frame s.block.a s.block.c s.block.v)).take (readiesIn Is)

/-- R145, R146 and R112: a frame of any length presented on the RX port from an empty buffer, whatever the caller path does
meanwhile, is shown after its last byte on the decoded-message port with the kind and fields that the Codec's decoder
gives the whole frame, and a Reply is then in the table with `wake` up. -/
def Obligations.PresentedFrameIsDecodedWhole : Prop :=
  ∀ (s : State) (f : Frame) (Is rest : List Inputs), f ≠ [] → s.block.rx_buf = [] → s.block.rx_len = 0 →
    s.script = Is ++ rest → unreset Is → presents f Is →
    ∃ t : State, Host.Core.run Sys2Proof.core f.length s = .next t ∧
      t.block.listener = {
        rx_buf := [], rx_len := 0, dec_valid := true, dec_kind := kindOf (decode f),
        dec_channel := (fieldsOrZero (decode f)).1, dec_param := (fieldsOrZero (decode f)).2.1,
        dec_value := (fieldsOrZero (decode f)).2.2 } ∧
      (∀ ch p x, decode f = .replyParameter ch p x →
        tblRead t.block.table (ch, p) = some x ∧ t.block.wake = true)
end

