-- ==== Sys2Proof/Laws/State.lean ====
section
/-! SUPPORT. What each update of the block writes, field by field, and what it leaves alone: one lemma per field per
update, so that no proof unfolds a record update. -/

namespace Sys2Proof.Machine

/-! ### Block.accept -/

@[simp] theorem Block.accept_fsm (b : Block) (o : Op) (sel : FrameSel) (a : Addr) (c : Channel) (v : Value) (t : Ticks) : (b.accept o sel a c v t).fsm = .send := rfl
@[simp] theorem Block.accept_op (b : Block) (o : Op) (sel : FrameSel) (a : Addr) (c : Channel) (v : Value) (t : Ticks) : (b.accept o sel a c v t).op = o := rfl
@[simp] theorem Block.accept_a (b : Block) (o : Op) (sel : FrameSel) (a : Addr) (c : Channel) (v : Value) (t : Ticks) : (b.accept o sel a c v t).a = a := rfl
@[simp] theorem Block.accept_c (b : Block) (o : Op) (sel : FrameSel) (a : Addr) (c : Channel) (v : Value) (t : Ticks) : (b.accept o sel a c v t).c = c := rfl
@[simp] theorem Block.accept_v (b : Block) (o : Op) (sel : FrameSel) (a : Addr) (c : Channel) (v : Value) (t : Ticks) : (b.accept o sel a c v t).v = v := rfl
@[simp] theorem Block.accept_t (b : Block) (o : Op) (sel : FrameSel) (a : Addr) (c : Channel) (v : Value) (t : Ticks) : (b.accept o sel a c v t).t = t := rfl
@[simp] theorem Block.accept_frame (b : Block) (o : Op) (sel : FrameSel) (a : Addr) (c : Channel) (v : Value) (t : Ticks) : (b.accept o sel a c v t).frame = sel := rfl
@[simp] theorem Block.accept_idx (b : Block) (o : Op) (sel : FrameSel) (a : Addr) (c : Channel) (v : Value) (t : Ticks) : (b.accept o sel a c v t).idx = 0 := rfl
@[simp] theorem Block.accept_timer (b : Block) (o : Op) (sel : FrameSel) (a : Addr) (c : Channel) (v : Value) (t : Ticks) : (b.accept o sel a c v t).timer = b.timer := rfl
@[simp] theorem Block.accept_status (b : Block) (o : Op) (sel : FrameSel) (a : Addr) (c : Channel) (v : Value) (t : Ticks) : (b.accept o sel a c v t).status = b.status := rfl
@[simp] theorem Block.accept_rvalue (b : Block) (o : Op) (sel : FrameSel) (a : Addr) (c : Channel) (v : Value) (t : Ticks) : (b.accept o sel a c v t).rvalue = b.rvalue := rfl
@[simp] theorem Block.accept_wake (b : Block) (o : Op) (sel : FrameSel) (a : Addr) (c : Channel) (v : Value) (t : Ticks) : (b.accept o sel a c v t).wake = b.wake := rfl
@[simp] theorem Block.accept_table (b : Block) (o : Op) (sel : FrameSel) (a : Addr) (c : Channel) (v : Value) (t : Ticks) : (b.accept o sel a c v t).table = b.table := rfl
@[simp] theorem Block.accept_rx_buf (b : Block) (o : Op) (sel : FrameSel) (a : Addr) (c : Channel) (v : Value) (t : Ticks) : (b.accept o sel a c v t).rx_buf = b.rx_buf := rfl
@[simp] theorem Block.accept_rx_len (b : Block) (o : Op) (sel : FrameSel) (a : Addr) (c : Channel) (v : Value) (t : Ticks) : (b.accept o sel a c v t).rx_len = b.rx_len := rfl
@[simp] theorem Block.accept_dec_valid (b : Block) (o : Op) (sel : FrameSel) (a : Addr) (c : Channel) (v : Value) (t : Ticks) : (b.accept o sel a c v t).dec_valid = b.dec_valid := rfl
@[simp] theorem Block.accept_dec_kind (b : Block) (o : Op) (sel : FrameSel) (a : Addr) (c : Channel) (v : Value) (t : Ticks) : (b.accept o sel a c v t).dec_kind = b.dec_kind := rfl
@[simp] theorem Block.accept_dec_channel (b : Block) (o : Op) (sel : FrameSel) (a : Addr) (c : Channel) (v : Value) (t : Ticks) : (b.accept o sel a c v t).dec_channel = b.dec_channel := rfl
@[simp] theorem Block.accept_dec_param (b : Block) (o : Op) (sel : FrameSel) (a : Addr) (c : Channel) (v : Value) (t : Ticks) : (b.accept o sel a c v t).dec_param = b.dec_param := rfl
@[simp] theorem Block.accept_dec_value (b : Block) (o : Op) (sel : FrameSel) (a : Addr) (c : Channel) (v : Value) (t : Ticks) : (b.accept o sel a c v t).dec_value = b.dec_value := rfl

/-! ### Block.discard -/

@[simp] theorem Block.discard_fsm (b : Block) (k : Key) : (b.discard k).fsm = b.fsm := rfl
@[simp] theorem Block.discard_op (b : Block) (k : Key) : (b.discard k).op = b.op := rfl
@[simp] theorem Block.discard_a (b : Block) (k : Key) : (b.discard k).a = b.a := rfl
@[simp] theorem Block.discard_c (b : Block) (k : Key) : (b.discard k).c = b.c := rfl
@[simp] theorem Block.discard_v (b : Block) (k : Key) : (b.discard k).v = b.v := rfl
@[simp] theorem Block.discard_t (b : Block) (k : Key) : (b.discard k).t = b.t := rfl
@[simp] theorem Block.discard_frame (b : Block) (k : Key) : (b.discard k).frame = b.frame := rfl
@[simp] theorem Block.discard_idx (b : Block) (k : Key) : (b.discard k).idx = b.idx := rfl
@[simp] theorem Block.discard_timer (b : Block) (k : Key) : (b.discard k).timer = b.timer := rfl
@[simp] theorem Block.discard_status (b : Block) (k : Key) : (b.discard k).status = b.status := rfl
@[simp] theorem Block.discard_rvalue (b : Block) (k : Key) : (b.discard k).rvalue = b.rvalue := rfl
@[simp] theorem Block.discard_wake (b : Block) (k : Key) : (b.discard k).wake = false := by simp [Block.discard, wakeAfter]
@[simp] theorem Block.discard_table (b : Block) (k : Key) : (b.discard k).table = tblClear b.table k := rfl
@[simp] theorem Block.discard_rx_buf (b : Block) (k : Key) : (b.discard k).rx_buf = b.rx_buf := rfl
@[simp] theorem Block.discard_rx_len (b : Block) (k : Key) : (b.discard k).rx_len = b.rx_len := rfl
@[simp] theorem Block.discard_dec_valid (b : Block) (k : Key) : (b.discard k).dec_valid = b.dec_valid := rfl
@[simp] theorem Block.discard_dec_kind (b : Block) (k : Key) : (b.discard k).dec_kind = b.dec_kind := rfl
@[simp] theorem Block.discard_dec_channel (b : Block) (k : Key) : (b.discard k).dec_channel = b.dec_channel := rfl
@[simp] theorem Block.discard_dec_param (b : Block) (k : Key) : (b.discard k).dec_param = b.dec_param := rfl
@[simp] theorem Block.discard_dec_value (b : Block) (k : Key) : (b.discard k).dec_value = b.dec_value := rfl

/-! ### Block.clearWake -/

@[simp] theorem Block.clearWake_fsm (b : Block) : (b.clearWake).fsm = b.fsm := rfl
@[simp] theorem Block.clearWake_op (b : Block) : (b.clearWake).op = b.op := rfl
@[simp] theorem Block.clearWake_a (b : Block) : (b.clearWake).a = b.a := rfl
@[simp] theorem Block.clearWake_c (b : Block) : (b.clearWake).c = b.c := rfl
@[simp] theorem Block.clearWake_v (b : Block) : (b.clearWake).v = b.v := rfl
@[simp] theorem Block.clearWake_t (b : Block) : (b.clearWake).t = b.t := rfl
@[simp] theorem Block.clearWake_frame (b : Block) : (b.clearWake).frame = b.frame := rfl
@[simp] theorem Block.clearWake_idx (b : Block) : (b.clearWake).idx = b.idx := rfl
@[simp] theorem Block.clearWake_timer (b : Block) : (b.clearWake).timer = b.timer := rfl
@[simp] theorem Block.clearWake_status (b : Block) : (b.clearWake).status = b.status := rfl
@[simp] theorem Block.clearWake_rvalue (b : Block) : (b.clearWake).rvalue = b.rvalue := rfl
@[simp] theorem Block.clearWake_wake (b : Block) : (b.clearWake).wake = false := by simp [Block.clearWake, wakeAfter]
@[simp] theorem Block.clearWake_table (b : Block) : (b.clearWake).table = b.table := rfl
@[simp] theorem Block.clearWake_rx_buf (b : Block) : (b.clearWake).rx_buf = b.rx_buf := rfl
@[simp] theorem Block.clearWake_rx_len (b : Block) : (b.clearWake).rx_len = b.rx_len := rfl
@[simp] theorem Block.clearWake_dec_valid (b : Block) : (b.clearWake).dec_valid = b.dec_valid := rfl
@[simp] theorem Block.clearWake_dec_kind (b : Block) : (b.clearWake).dec_kind = b.dec_kind := rfl
@[simp] theorem Block.clearWake_dec_channel (b : Block) : (b.clearWake).dec_channel = b.dec_channel := rfl
@[simp] theorem Block.clearWake_dec_param (b : Block) : (b.clearWake).dec_param = b.dec_param := rfl
@[simp] theorem Block.clearWake_dec_value (b : Block) : (b.clearWake).dec_value = b.dec_value := rfl

/-! ### Block.complete -/

@[simp] theorem Block.complete_fsm (b : Block) (st : Status) (x : Value) : (b.complete st x).fsm = .resp := rfl
@[simp] theorem Block.complete_op (b : Block) (st : Status) (x : Value) : (b.complete st x).op = b.op := rfl
@[simp] theorem Block.complete_a (b : Block) (st : Status) (x : Value) : (b.complete st x).a = b.a := rfl
@[simp] theorem Block.complete_c (b : Block) (st : Status) (x : Value) : (b.complete st x).c = b.c := rfl
@[simp] theorem Block.complete_v (b : Block) (st : Status) (x : Value) : (b.complete st x).v = b.v := rfl
@[simp] theorem Block.complete_t (b : Block) (st : Status) (x : Value) : (b.complete st x).t = b.t := rfl
@[simp] theorem Block.complete_frame (b : Block) (st : Status) (x : Value) : (b.complete st x).frame = b.frame := rfl
@[simp] theorem Block.complete_idx (b : Block) (st : Status) (x : Value) : (b.complete st x).idx = b.idx := rfl
@[simp] theorem Block.complete_timer (b : Block) (st : Status) (x : Value) : (b.complete st x).timer = b.timer := rfl
@[simp] theorem Block.complete_status (b : Block) (st : Status) (x : Value) : (b.complete st x).status = st := rfl
@[simp] theorem Block.complete_rvalue (b : Block) (st : Status) (x : Value) : (b.complete st x).rvalue = x := rfl
@[simp] theorem Block.complete_wake (b : Block) (st : Status) (x : Value) : (b.complete st x).wake = b.wake := rfl
@[simp] theorem Block.complete_table (b : Block) (st : Status) (x : Value) : (b.complete st x).table = b.table := rfl
@[simp] theorem Block.complete_rx_buf (b : Block) (st : Status) (x : Value) : (b.complete st x).rx_buf = b.rx_buf := rfl
@[simp] theorem Block.complete_rx_len (b : Block) (st : Status) (x : Value) : (b.complete st x).rx_len = b.rx_len := rfl
@[simp] theorem Block.complete_dec_valid (b : Block) (st : Status) (x : Value) : (b.complete st x).dec_valid = b.dec_valid := rfl
@[simp] theorem Block.complete_dec_kind (b : Block) (st : Status) (x : Value) : (b.complete st x).dec_kind = b.dec_kind := rfl
@[simp] theorem Block.complete_dec_channel (b : Block) (st : Status) (x : Value) : (b.complete st x).dec_channel = b.dec_channel := rfl
@[simp] theorem Block.complete_dec_param (b : Block) (st : Status) (x : Value) : (b.complete st x).dec_param = b.dec_param := rfl
@[simp] theorem Block.complete_dec_value (b : Block) (st : Status) (x : Value) : (b.complete st x).dec_value = b.dec_value := rfl

/-! ### Block.release -/

@[simp] theorem Block.release_fsm (b : Block) : (b.release).fsm = .idle := rfl
@[simp] theorem Block.release_op (b : Block) : (b.release).op = b.op := rfl
@[simp] theorem Block.release_a (b : Block) : (b.release).a = b.a := rfl
@[simp] theorem Block.release_c (b : Block) : (b.release).c = b.c := rfl
@[simp] theorem Block.release_v (b : Block) : (b.release).v = b.v := rfl
@[simp] theorem Block.release_t (b : Block) : (b.release).t = b.t := rfl
@[simp] theorem Block.release_frame (b : Block) : (b.release).frame = b.frame := rfl
@[simp] theorem Block.release_idx (b : Block) : (b.release).idx = b.idx := rfl
@[simp] theorem Block.release_timer (b : Block) : (b.release).timer = b.timer := rfl
@[simp] theorem Block.release_status (b : Block) : (b.release).status = b.status := rfl
@[simp] theorem Block.release_rvalue (b : Block) : (b.release).rvalue = b.rvalue := rfl
@[simp] theorem Block.release_wake (b : Block) : (b.release).wake = b.wake := rfl
@[simp] theorem Block.release_table (b : Block) : (b.release).table = b.table := rfl
@[simp] theorem Block.release_rx_buf (b : Block) : (b.release).rx_buf = b.rx_buf := rfl
@[simp] theorem Block.release_rx_len (b : Block) : (b.release).rx_len = b.rx_len := rfl
@[simp] theorem Block.release_dec_valid (b : Block) : (b.release).dec_valid = b.dec_valid := rfl
@[simp] theorem Block.release_dec_kind (b : Block) : (b.release).dec_kind = b.dec_kind := rfl
@[simp] theorem Block.release_dec_channel (b : Block) : (b.release).dec_channel = b.dec_channel := rfl
@[simp] theorem Block.release_dec_param (b : Block) : (b.release).dec_param = b.dec_param := rfl
@[simp] theorem Block.release_dec_value (b : Block) : (b.release).dec_value = b.dec_value := rfl

/-! ### Block.nextByte -/

@[simp] theorem Block.nextByte_fsm (b : Block) : (b.nextByte).fsm = b.fsm := rfl
@[simp] theorem Block.nextByte_op (b : Block) : (b.nextByte).op = b.op := rfl
@[simp] theorem Block.nextByte_a (b : Block) : (b.nextByte).a = b.a := rfl
@[simp] theorem Block.nextByte_c (b : Block) : (b.nextByte).c = b.c := rfl
@[simp] theorem Block.nextByte_v (b : Block) : (b.nextByte).v = b.v := rfl
@[simp] theorem Block.nextByte_t (b : Block) : (b.nextByte).t = b.t := rfl
@[simp] theorem Block.nextByte_frame (b : Block) : (b.nextByte).frame = b.frame := rfl
@[simp] theorem Block.nextByte_idx (b : Block) : (b.nextByte).idx = b.idx + 1 := rfl
@[simp] theorem Block.nextByte_timer (b : Block) : (b.nextByte).timer = b.timer := rfl
@[simp] theorem Block.nextByte_status (b : Block) : (b.nextByte).status = b.status := rfl
@[simp] theorem Block.nextByte_rvalue (b : Block) : (b.nextByte).rvalue = b.rvalue := rfl
@[simp] theorem Block.nextByte_wake (b : Block) : (b.nextByte).wake = b.wake := rfl
@[simp] theorem Block.nextByte_table (b : Block) : (b.nextByte).table = b.table := rfl
@[simp] theorem Block.nextByte_rx_buf (b : Block) : (b.nextByte).rx_buf = b.rx_buf := rfl
@[simp] theorem Block.nextByte_rx_len (b : Block) : (b.nextByte).rx_len = b.rx_len := rfl
@[simp] theorem Block.nextByte_dec_valid (b : Block) : (b.nextByte).dec_valid = b.dec_valid := rfl
@[simp] theorem Block.nextByte_dec_kind (b : Block) : (b.nextByte).dec_kind = b.dec_kind := rfl
@[simp] theorem Block.nextByte_dec_channel (b : Block) : (b.nextByte).dec_channel = b.dec_channel := rfl
@[simp] theorem Block.nextByte_dec_param (b : Block) : (b.nextByte).dec_param = b.dec_param := rfl
@[simp] theorem Block.nextByte_dec_value (b : Block) : (b.nextByte).dec_value = b.dec_value := rfl

/-! ### Block.startQuery -/

@[simp] theorem Block.startQuery_fsm (b : Block) : (b.startQuery).fsm = b.fsm := rfl
@[simp] theorem Block.startQuery_op (b : Block) : (b.startQuery).op = b.op := rfl
@[simp] theorem Block.startQuery_a (b : Block) : (b.startQuery).a = b.a := rfl
@[simp] theorem Block.startQuery_c (b : Block) : (b.startQuery).c = b.c := rfl
@[simp] theorem Block.startQuery_v (b : Block) : (b.startQuery).v = b.v := rfl
@[simp] theorem Block.startQuery_t (b : Block) : (b.startQuery).t = b.t := rfl
@[simp] theorem Block.startQuery_frame (b : Block) : (b.startQuery).frame = .qry := rfl
@[simp] theorem Block.startQuery_idx (b : Block) : (b.startQuery).idx = 0 := rfl
@[simp] theorem Block.startQuery_timer (b : Block) : (b.startQuery).timer = b.timer := rfl
@[simp] theorem Block.startQuery_status (b : Block) : (b.startQuery).status = b.status := rfl
@[simp] theorem Block.startQuery_rvalue (b : Block) : (b.startQuery).rvalue = b.rvalue := rfl
@[simp] theorem Block.startQuery_wake (b : Block) : (b.startQuery).wake = b.wake := rfl
@[simp] theorem Block.startQuery_table (b : Block) : (b.startQuery).table = b.table := rfl
@[simp] theorem Block.startQuery_rx_buf (b : Block) : (b.startQuery).rx_buf = b.rx_buf := rfl
@[simp] theorem Block.startQuery_rx_len (b : Block) : (b.startQuery).rx_len = b.rx_len := rfl
@[simp] theorem Block.startQuery_dec_valid (b : Block) : (b.startQuery).dec_valid = b.dec_valid := rfl
@[simp] theorem Block.startQuery_dec_kind (b : Block) : (b.startQuery).dec_kind = b.dec_kind := rfl
@[simp] theorem Block.startQuery_dec_channel (b : Block) : (b.startQuery).dec_channel = b.dec_channel := rfl
@[simp] theorem Block.startQuery_dec_param (b : Block) : (b.startQuery).dec_param = b.dec_param := rfl
@[simp] theorem Block.startQuery_dec_value (b : Block) : (b.startQuery).dec_value = b.dec_value := rfl

/-! ### Block.enterWait -/

@[simp] theorem Block.enterWait_fsm (b : Block) : (b.enterWait).fsm = .wait := rfl
@[simp] theorem Block.enterWait_op (b : Block) : (b.enterWait).op = b.op := rfl
@[simp] theorem Block.enterWait_a (b : Block) : (b.enterWait).a = b.a := rfl
@[simp] theorem Block.enterWait_c (b : Block) : (b.enterWait).c = b.c := rfl
@[simp] theorem Block.enterWait_v (b : Block) : (b.enterWait).v = b.v := rfl
@[simp] theorem Block.enterWait_t (b : Block) : (b.enterWait).t = b.t := rfl
@[simp] theorem Block.enterWait_frame (b : Block) : (b.enterWait).frame = b.frame := rfl
@[simp] theorem Block.enterWait_idx (b : Block) : (b.enterWait).idx = b.idx := rfl
@[simp] theorem Block.enterWait_timer (b : Block) : (b.enterWait).timer = b.t := rfl
@[simp] theorem Block.enterWait_status (b : Block) : (b.enterWait).status = b.status := rfl
@[simp] theorem Block.enterWait_rvalue (b : Block) : (b.enterWait).rvalue = b.rvalue := rfl
@[simp] theorem Block.enterWait_wake (b : Block) : (b.enterWait).wake = b.wake := rfl
@[simp] theorem Block.enterWait_table (b : Block) : (b.enterWait).table = b.table := rfl
@[simp] theorem Block.enterWait_rx_buf (b : Block) : (b.enterWait).rx_buf = b.rx_buf := rfl
@[simp] theorem Block.enterWait_rx_len (b : Block) : (b.enterWait).rx_len = b.rx_len := rfl
@[simp] theorem Block.enterWait_dec_valid (b : Block) : (b.enterWait).dec_valid = b.dec_valid := rfl
@[simp] theorem Block.enterWait_dec_kind (b : Block) : (b.enterWait).dec_kind = b.dec_kind := rfl
@[simp] theorem Block.enterWait_dec_channel (b : Block) : (b.enterWait).dec_channel = b.dec_channel := rfl
@[simp] theorem Block.enterWait_dec_param (b : Block) : (b.enterWait).dec_param = b.dec_param := rfl
@[simp] theorem Block.enterWait_dec_value (b : Block) : (b.enterWait).dec_value = b.dec_value := rfl

/-! ### Block.tickDown -/

@[simp] theorem Block.tickDown_fsm (b : Block) : (b.tickDown).fsm = b.fsm := rfl
@[simp] theorem Block.tickDown_op (b : Block) : (b.tickDown).op = b.op := rfl
@[simp] theorem Block.tickDown_a (b : Block) : (b.tickDown).a = b.a := rfl
@[simp] theorem Block.tickDown_c (b : Block) : (b.tickDown).c = b.c := rfl
@[simp] theorem Block.tickDown_v (b : Block) : (b.tickDown).v = b.v := rfl
@[simp] theorem Block.tickDown_t (b : Block) : (b.tickDown).t = b.t := rfl
@[simp] theorem Block.tickDown_frame (b : Block) : (b.tickDown).frame = b.frame := rfl
@[simp] theorem Block.tickDown_idx (b : Block) : (b.tickDown).idx = b.idx := rfl
@[simp] theorem Block.tickDown_timer (b : Block) : (b.tickDown).timer = b.timer - 1 := rfl
@[simp] theorem Block.tickDown_status (b : Block) : (b.tickDown).status = b.status := rfl
@[simp] theorem Block.tickDown_rvalue (b : Block) : (b.tickDown).rvalue = b.rvalue := rfl
@[simp] theorem Block.tickDown_wake (b : Block) : (b.tickDown).wake = b.wake := rfl
@[simp] theorem Block.tickDown_table (b : Block) : (b.tickDown).table = b.table := rfl
@[simp] theorem Block.tickDown_rx_buf (b : Block) : (b.tickDown).rx_buf = b.rx_buf := rfl
@[simp] theorem Block.tickDown_rx_len (b : Block) : (b.tickDown).rx_len = b.rx_len := rfl
@[simp] theorem Block.tickDown_dec_valid (b : Block) : (b.tickDown).dec_valid = b.dec_valid := rfl
@[simp] theorem Block.tickDown_dec_kind (b : Block) : (b.tickDown).dec_kind = b.dec_kind := rfl
@[simp] theorem Block.tickDown_dec_channel (b : Block) : (b.tickDown).dec_channel = b.dec_channel := rfl
@[simp] theorem Block.tickDown_dec_param (b : Block) : (b.tickDown).dec_param = b.dec_param := rfl
@[simp] theorem Block.tickDown_dec_value (b : Block) : (b.tickDown).dec_value = b.dec_value := rfl

/-! ### Block.noFrame -/

@[simp] theorem Block.noFrame_fsm (b : Block) : (b.noFrame).fsm = b.fsm := rfl
@[simp] theorem Block.noFrame_op (b : Block) : (b.noFrame).op = b.op := rfl
@[simp] theorem Block.noFrame_a (b : Block) : (b.noFrame).a = b.a := rfl
@[simp] theorem Block.noFrame_c (b : Block) : (b.noFrame).c = b.c := rfl
@[simp] theorem Block.noFrame_v (b : Block) : (b.noFrame).v = b.v := rfl
@[simp] theorem Block.noFrame_t (b : Block) : (b.noFrame).t = b.t := rfl
@[simp] theorem Block.noFrame_frame (b : Block) : (b.noFrame).frame = b.frame := rfl
@[simp] theorem Block.noFrame_idx (b : Block) : (b.noFrame).idx = b.idx := rfl
@[simp] theorem Block.noFrame_timer (b : Block) : (b.noFrame).timer = b.timer := rfl
@[simp] theorem Block.noFrame_status (b : Block) : (b.noFrame).status = b.status := rfl
@[simp] theorem Block.noFrame_rvalue (b : Block) : (b.noFrame).rvalue = b.rvalue := rfl
@[simp] theorem Block.noFrame_wake (b : Block) : (b.noFrame).wake = b.wake := rfl
@[simp] theorem Block.noFrame_table (b : Block) : (b.noFrame).table = b.table := rfl
@[simp] theorem Block.noFrame_rx_buf (b : Block) : (b.noFrame).rx_buf = b.rx_buf := rfl
@[simp] theorem Block.noFrame_rx_len (b : Block) : (b.noFrame).rx_len = b.rx_len := rfl
@[simp] theorem Block.noFrame_dec_valid (b : Block) : (b.noFrame).dec_valid = false := rfl
@[simp] theorem Block.noFrame_dec_kind (b : Block) : (b.noFrame).dec_kind = b.dec_kind := rfl
@[simp] theorem Block.noFrame_dec_channel (b : Block) : (b.noFrame).dec_channel = b.dec_channel := rfl
@[simp] theorem Block.noFrame_dec_param (b : Block) : (b.noFrame).dec_param = b.dec_param := rfl
@[simp] theorem Block.noFrame_dec_value (b : Block) : (b.noFrame).dec_value = b.dec_value := rfl

/-! ### Block.keepByte -/

@[simp] theorem Block.keepByte_fsm (b : Block) (d : Byte) : (b.keepByte d).fsm = b.fsm := rfl
@[simp] theorem Block.keepByte_op (b : Block) (d : Byte) : (b.keepByte d).op = b.op := rfl
@[simp] theorem Block.keepByte_a (b : Block) (d : Byte) : (b.keepByte d).a = b.a := rfl
@[simp] theorem Block.keepByte_c (b : Block) (d : Byte) : (b.keepByte d).c = b.c := rfl
@[simp] theorem Block.keepByte_v (b : Block) (d : Byte) : (b.keepByte d).v = b.v := rfl
@[simp] theorem Block.keepByte_t (b : Block) (d : Byte) : (b.keepByte d).t = b.t := rfl
@[simp] theorem Block.keepByte_frame (b : Block) (d : Byte) : (b.keepByte d).frame = b.frame := rfl
@[simp] theorem Block.keepByte_idx (b : Block) (d : Byte) : (b.keepByte d).idx = b.idx := rfl
@[simp] theorem Block.keepByte_timer (b : Block) (d : Byte) : (b.keepByte d).timer = b.timer := rfl
@[simp] theorem Block.keepByte_status (b : Block) (d : Byte) : (b.keepByte d).status = b.status := rfl
@[simp] theorem Block.keepByte_rvalue (b : Block) (d : Byte) : (b.keepByte d).rvalue = b.rvalue := rfl
@[simp] theorem Block.keepByte_wake (b : Block) (d : Byte) : (b.keepByte d).wake = b.wake := rfl
@[simp] theorem Block.keepByte_table (b : Block) (d : Byte) : (b.keepByte d).table = b.table := rfl
@[simp] theorem Block.keepByte_rx_buf (b : Block) (d : Byte) : (b.keepByte d).rx_buf = b.rxBytes d := rfl
@[simp] theorem Block.keepByte_rx_len (b : Block) (d : Byte) : (b.keepByte d).rx_len = BitVec.ofNat 5 b.rxCount := rfl
@[simp] theorem Block.keepByte_dec_valid (b : Block) (d : Byte) : (b.keepByte d).dec_valid = b.dec_valid := rfl
@[simp] theorem Block.keepByte_dec_kind (b : Block) (d : Byte) : (b.keepByte d).dec_kind = b.dec_kind := rfl
@[simp] theorem Block.keepByte_dec_channel (b : Block) (d : Byte) : (b.keepByte d).dec_channel = b.dec_channel := rfl
@[simp] theorem Block.keepByte_dec_param (b : Block) (d : Byte) : (b.keepByte d).dec_param = b.dec_param := rfl
@[simp] theorem Block.keepByte_dec_value (b : Block) (d : Byte) : (b.keepByte d).dec_value = b.dec_value := rfl

/-! ### Block.observe -/

@[simp] theorem Block.observe_fsm (b : Block) (kd : DecKind) (ch : Channel) (p : Addr) (x : Value) : (b.observe kd ch p x).fsm = b.fsm := rfl
@[simp] theorem Block.observe_op (b : Block) (kd : DecKind) (ch : Channel) (p : Addr) (x : Value) : (b.observe kd ch p x).op = b.op := rfl
@[simp] theorem Block.observe_a (b : Block) (kd : DecKind) (ch : Channel) (p : Addr) (x : Value) : (b.observe kd ch p x).a = b.a := rfl
@[simp] theorem Block.observe_c (b : Block) (kd : DecKind) (ch : Channel) (p : Addr) (x : Value) : (b.observe kd ch p x).c = b.c := rfl
@[simp] theorem Block.observe_v (b : Block) (kd : DecKind) (ch : Channel) (p : Addr) (x : Value) : (b.observe kd ch p x).v = b.v := rfl
@[simp] theorem Block.observe_t (b : Block) (kd : DecKind) (ch : Channel) (p : Addr) (x : Value) : (b.observe kd ch p x).t = b.t := rfl
@[simp] theorem Block.observe_frame (b : Block) (kd : DecKind) (ch : Channel) (p : Addr) (x : Value) : (b.observe kd ch p x).frame = b.frame := rfl
@[simp] theorem Block.observe_idx (b : Block) (kd : DecKind) (ch : Channel) (p : Addr) (x : Value) : (b.observe kd ch p x).idx = b.idx := rfl
@[simp] theorem Block.observe_timer (b : Block) (kd : DecKind) (ch : Channel) (p : Addr) (x : Value) : (b.observe kd ch p x).timer = b.timer := rfl
@[simp] theorem Block.observe_status (b : Block) (kd : DecKind) (ch : Channel) (p : Addr) (x : Value) : (b.observe kd ch p x).status = b.status := rfl
@[simp] theorem Block.observe_rvalue (b : Block) (kd : DecKind) (ch : Channel) (p : Addr) (x : Value) : (b.observe kd ch p x).rvalue = b.rvalue := rfl
@[simp] theorem Block.observe_wake (b : Block) (kd : DecKind) (ch : Channel) (p : Addr) (x : Value) : (b.observe kd ch p x).wake = b.wake := rfl
@[simp] theorem Block.observe_table (b : Block) (kd : DecKind) (ch : Channel) (p : Addr) (x : Value) : (b.observe kd ch p x).table = b.table := rfl
@[simp] theorem Block.observe_rx_buf (b : Block) (kd : DecKind) (ch : Channel) (p : Addr) (x : Value) : (b.observe kd ch p x).rx_buf = [] := rfl
@[simp] theorem Block.observe_rx_len (b : Block) (kd : DecKind) (ch : Channel) (p : Addr) (x : Value) : (b.observe kd ch p x).rx_len = 0 := rfl
@[simp] theorem Block.observe_dec_valid (b : Block) (kd : DecKind) (ch : Channel) (p : Addr) (x : Value) : (b.observe kd ch p x).dec_valid = true := rfl
@[simp] theorem Block.observe_dec_kind (b : Block) (kd : DecKind) (ch : Channel) (p : Addr) (x : Value) : (b.observe kd ch p x).dec_kind = kd := rfl
@[simp] theorem Block.observe_dec_channel (b : Block) (kd : DecKind) (ch : Channel) (p : Addr) (x : Value) : (b.observe kd ch p x).dec_channel = ch := rfl
@[simp] theorem Block.observe_dec_param (b : Block) (kd : DecKind) (ch : Channel) (p : Addr) (x : Value) : (b.observe kd ch p x).dec_param = p := rfl
@[simp] theorem Block.observe_dec_value (b : Block) (kd : DecKind) (ch : Channel) (p : Addr) (x : Value) : (b.observe kd ch p x).dec_value = x := rfl

/-! ### Block.insertReply -/

@[simp] theorem Block.insertReply_fsm (b : Block) (k : Key) (x : Value) : (b.insertReply k x).fsm = b.fsm := rfl
@[simp] theorem Block.insertReply_op (b : Block) (k : Key) (x : Value) : (b.insertReply k x).op = b.op := rfl
@[simp] theorem Block.insertReply_a (b : Block) (k : Key) (x : Value) : (b.insertReply k x).a = b.a := rfl
@[simp] theorem Block.insertReply_c (b : Block) (k : Key) (x : Value) : (b.insertReply k x).c = b.c := rfl
@[simp] theorem Block.insertReply_v (b : Block) (k : Key) (x : Value) : (b.insertReply k x).v = b.v := rfl
@[simp] theorem Block.insertReply_t (b : Block) (k : Key) (x : Value) : (b.insertReply k x).t = b.t := rfl
@[simp] theorem Block.insertReply_frame (b : Block) (k : Key) (x : Value) : (b.insertReply k x).frame = b.frame := rfl
@[simp] theorem Block.insertReply_idx (b : Block) (k : Key) (x : Value) : (b.insertReply k x).idx = b.idx := rfl
@[simp] theorem Block.insertReply_timer (b : Block) (k : Key) (x : Value) : (b.insertReply k x).timer = b.timer := rfl
@[simp] theorem Block.insertReply_status (b : Block) (k : Key) (x : Value) : (b.insertReply k x).status = b.status := rfl
@[simp] theorem Block.insertReply_rvalue (b : Block) (k : Key) (x : Value) : (b.insertReply k x).rvalue = b.rvalue := rfl
@[simp] theorem Block.insertReply_wake (b : Block) (k : Key) (x : Value) : (b.insertReply k x).wake = true := by simp [Block.insertReply, wakeAfter]
@[simp] theorem Block.insertReply_table (b : Block) (k : Key) (x : Value) : (b.insertReply k x).table = tblWrite b.table k x := rfl
@[simp] theorem Block.insertReply_rx_buf (b : Block) (k : Key) (x : Value) : (b.insertReply k x).rx_buf = b.rx_buf := rfl
@[simp] theorem Block.insertReply_rx_len (b : Block) (k : Key) (x : Value) : (b.insertReply k x).rx_len = b.rx_len := rfl
@[simp] theorem Block.insertReply_dec_valid (b : Block) (k : Key) (x : Value) : (b.insertReply k x).dec_valid = b.dec_valid := rfl
@[simp] theorem Block.insertReply_dec_kind (b : Block) (k : Key) (x : Value) : (b.insertReply k x).dec_kind = b.dec_kind := rfl
@[simp] theorem Block.insertReply_dec_channel (b : Block) (k : Key) (x : Value) : (b.insertReply k x).dec_channel = b.dec_channel := rfl
@[simp] theorem Block.insertReply_dec_param (b : Block) (k : Key) (x : Value) : (b.insertReply k x).dec_param = b.dec_param := rfl
@[simp] theorem Block.insertReply_dec_value (b : Block) (k : Key) (x : Value) : (b.insertReply k x).dec_value = b.dec_value := rfl

/-! ### The machine around the block -/

@[simp] theorem State.withBlock_block (s : State) (b : Block) : (s.withBlock b).block = b := rfl
@[simp] theorem State.withBlock_script (s : State) (b : Block) : (s.withBlock b).script = s.script := rfl
@[simp] theorem State.withBlock_edge (s : State) (b : Block) : (s.withBlock b).edge = s.edge := rfl
@[simp] theorem State.advance_block (s : State) : s.advance.block = s.block := rfl
@[simp] theorem State.advance_script (s : State) : s.advance.script = s.script.tail := rfl
@[simp] theorem State.advance_edge (s : State) : s.advance.edge = s.edge + 1 := rfl
@[simp] theorem State.withBlock_self (s : State) : s.withBlock s.block = s := rfl
@[simp] theorem State.withBlock_withBlock (s : State) (b b' : Block) :
    (s.withBlock b).withBlock b' = s.withBlock b' := rfl
@[simp] theorem State.withBlock_input (s : State) (b : Block) : (s.withBlock b).input = s.input := rfl
@[simp] theorem andThen_next (s : State) (k : State → Host.Outcome State Fault Refusal) :
    andThen (.next s) k = k s := rfl
/-- A foreseen vector is the one the next edge samples. -/
theorem State.input_of_script {s : State} {I : Inputs} {rest : List Inputs} (h : s.script = I :: rest) :
    s.input = I := by
  simp [State.input, h]

end Sys2Proof.Machine
end

