-- ==== Sys2Proof/Laws/Table.lean ====
section
/-! SUPPORT. The laws of the PendingReplyTable: what a read gives after a write or a clear (`20_memory.md` R51 to R53),
and that every operation keeps the canonical form. -/

namespace Sys2Proof.Machine

/-- The number of a key is below the key space (R50). -/
theorem keyIndex_lt (k : Key) : keyIndex k < Config.keySpace := by
  have h1 := k.1.isLt
  have h2 := k.2.isLt
  simp only [keyIndex, Config.addrW, Config.keySpace]
  omega

/-- Different keys have different numbers (R50). -/
theorem keyIndex_inj {k k' : Key} (h : keyIndex k = keyIndex k') : k = k' := by
  have h1 := k.2.isLt
  have h2 := k'.2.isLt
  simp only [keyIndex, Config.addrW] at h
  have hc : k.1.toNat = k'.1.toNat := by omega
  have ha : k.2.toNat = k'.2.toNat := by omega
  exact Prod.ext (BitVec.eq_of_toNat_eq hc) (BitVec.eq_of_toNat_eq ha)

theorem readAt_insertAt_same (T : Table) (n : Nat) (x : Value) : readAt (insertAt T n x) n = some x := by
  induction T with
  | nil => simp [insertAt, readAt]
  | cons e rest ih =>
    obtain ⟨j, y⟩ := e
    simp only [insertAt]
    split
    · simp [readAt]
    · split
      · simp [readAt]
      · have hne : j ≠ n := fun h => by omega
        simp [readAt, hne, ih]

theorem readAt_insertAt_other (T : Table) {n m : Nat} (x : Value) (h : m ≠ n) :
    readAt (insertAt T n x) m = readAt T m := by
  induction T with
  | nil => simp [insertAt, readAt, h.symm]
  | cons e rest ih =>
    obtain ⟨j, y⟩ := e
    simp only [insertAt]
    split
    · simp [readAt, h.symm]
    · split
      · subst_vars
        simp [readAt, h.symm]
      · simp [readAt, ih]

theorem readAt_eraseAt_same (T : Table) (n : Nat) : readAt (eraseAt T n) n = none := by
  induction T with
  | nil => rfl
  | cons e rest ih =>
    obtain ⟨j, y⟩ := e
    simp only [eraseAt]
    split
    · exact ih
    · next h => simp [readAt, h, ih]

theorem readAt_eraseAt_other (T : Table) {n m : Nat} (h : m ≠ n) : readAt (eraseAt T n) m = readAt T m := by
  induction T with
  | nil => rfl
  | cons e rest ih =>
    obtain ⟨j, y⟩ := e
    simp only [eraseAt]
    split
    · subst_vars
      simp [readAt, h.symm, ih]
    · simp [readAt, ih]

/-- A write, read back at its key (R52). -/
@[simp] theorem tblRead_tblWrite_same (T : Table) (k : Key) (x : Value) :
    tblRead (tblWrite T k x) k = some x := readAt_insertAt_same T (keyIndex k) x

/-- A write leaves every other key alone (R52). -/
theorem tblRead_tblWrite_other (T : Table) {k k' : Key} (x : Value) (h : k' ≠ k) :
    tblRead (tblWrite T k x) k' = tblRead T k' :=
  readAt_insertAt_other T x fun e => h (keyIndex_inj e)

/-- A clear, read back at its key (R53). -/
@[simp] theorem tblRead_tblClear_same (T : Table) (k : Key) : tblRead (tblClear T k) k = none :=
  readAt_eraseAt_same T (keyIndex k)

/-- A clear leaves every other key alone (R53). -/
theorem tblRead_tblClear_other (T : Table) {k k' : Key} (h : k' ≠ k) :
    tblRead (tblClear T k) k' = tblRead T k' :=
  readAt_eraseAt_other T fun e => h (keyIndex_inj e)

/-- The reset table reads `none` at every key (`70_reset_and_hazards.md` R190). -/
@[simp] theorem tblRead_empty (k : Key) : tblRead [] k = none := rfl

/-! ### The canonical form -/

@[simp] theorem wf_empty : Memory.wf [] = true := rfl

theorem wfFrom_cons {lo : Option Nat} {j : Nat} {y : Value} {rest : Table} :
    Memory.wfFrom lo ((j, y) :: rest) = true ↔
      (∀ m, lo = some m → m < j) ∧ j < Config.keySpace ∧ Memory.wfFrom (some j) rest = true := by
  cases lo <;> simp [Memory.wfFrom, and_assoc]

/-- A later lower bound may be replaced by an earlier one. -/
theorem wfFrom_weaken {lo : Option Nat} {m : Nat} {T : Table} (hlo : ∀ l, lo = some l → l ≤ m)
    (h : Memory.wfFrom (some m) T = true) : Memory.wfFrom lo T = true := by
  cases T with
  | nil => cases lo <;> rfl
  | cons e rest =>
    obtain ⟨j, y⟩ := e
    rw [wfFrom_cons] at h ⊢
    refine ⟨fun l hl => ?_, h.2⟩
    have h1 := hlo l hl
    have h2 := h.1 m rfl
    omega

theorem wfFrom_insertAt {lo : Option Nat} {T : Table} {n : Nat} (x : Value) (hn : n < Config.keySpace)
    (hlo : ∀ l, lo = some l → l < n) (h : Memory.wfFrom lo T = true) :
    Memory.wfFrom lo (insertAt T n x) = true := by
  induction T generalizing lo with
  | nil => exact wfFrom_cons.mpr ⟨hlo, hn, rfl⟩
  | cons e rest ih =>
    obtain ⟨j, y⟩ := e
    obtain ⟨hj, hjk, hr⟩ := wfFrom_cons.mp h
    simp only [insertAt]
    split
    · next hlt =>
      refine wfFrom_cons.mpr ⟨hlo, hn, wfFrom_cons.mpr ⟨?_, hjk, hr⟩⟩
      rintro m ⟨⟩
      exact hlt
    · split
      · next heq =>
        subst heq
        exact wfFrom_cons.mpr ⟨hlo, hn, hr⟩
      · refine wfFrom_cons.mpr ⟨hj, hjk, ih ?_ hr⟩
        rintro m ⟨⟩
        omega

theorem wfFrom_eraseAt {lo : Option Nat} {T : Table} (n : Nat) (h : Memory.wfFrom lo T = true) :
    Memory.wfFrom lo (eraseAt T n) = true := by
  induction T generalizing lo with
  | nil => exact h
  | cons e rest ih =>
    obtain ⟨j, y⟩ := e
    obtain ⟨hj, hjk, hr⟩ := wfFrom_cons.mp h
    simp only [eraseAt]
    split
    · exact ih (wfFrom_weaken (fun l hl => (hj l hl).le) hr)
    · exact wfFrom_cons.mpr ⟨hj, hjk, ih hr⟩

/-- A write keeps the canonical form. -/
theorem wf_tblWrite {T : Table} (k : Key) (x : Value) (h : Memory.wf T = true) :
    Memory.wf (tblWrite T k x) = true :=
  wfFrom_insertAt x (keyIndex_lt k) (by simp) h

/-- A clear keeps the canonical form. -/
theorem wf_tblClear {T : Table} (k : Key) (h : Memory.wf T = true) : Memory.wf (tblClear T k) = true :=
  wfFrom_eraseAt (keyIndex k) h

/-- A table whose numbers rise from above `m` reads `none` up to `m`. -/
theorem readAt_none_of_wfFrom {lo : Option Nat} {T : Table} {n m : Nat} (h : Memory.wfFrom lo T = true)
    (hlo : lo = some m) (hn : n ≤ m) : readAt T n = none := by
  induction T generalizing lo m with
  | nil => rfl
  | cons e rest ih =>
    obtain ⟨j, y⟩ := e
    obtain ⟨hj, _, hr⟩ := wfFrom_cons.mp h
    have := hj m hlo
    have hne : j ≠ n := by omega
    simp only [readAt, hne, if_false]
    exact ih hr rfl (by omega)

end Sys2Proof.Machine
end

