-- ==== Sys2Proof/Laws/Caller.lean ====
section
/-! SUPPORT. What an edge of the caller path can do while a command is in progress, said once per state
(`41_session.md` R135 to R144). -/

namespace Sys2Proof.Machine

@[simp] theorem Block.key_mk (b : Block) : b.key = (b.c, b.a) := rfl

theorem Block.atLastByte_iff (b : Block) : b.atLastByte = true ↔ b.idx.toNat = frameLen b.frame - 1 := by
  simp [Block.atLastByte]

/-- The last byte of a frame (R136): each frame's own continuation. -/
theorem Block.frameSent_cases (b : Block) :
    (b.frame = .ka ∧ b.frameSent = b.complete .sent 0) ∨
    (b.frame = .chg ∧ b.op = .change ∧ b.frameSent = b.complete .sent 0) ∨
    (b.frame = .chg ∧ b.op ≠ .change ∧ b.frameSent = b.startQuery.discard b.key) ∨
    (b.frame = .qry ∧ b.frameSent = b.enterWait) := by
  unfold Block.frameSent
  cases hf : b.frame with
  | ka => simp
  | qry => simp
  | chg =>
    by_cases ho : b.op = .change
    · simp [ho]
    · simp [ho]

/-- An edge in SEND (R135, R136, R200): nothing, the next byte, or the end of the frame. -/
theorem Block.sendEdge_cases (b : Block) (r : Bool) :
    (r = false ∧ b.sendEdge r = b) ∨
    (r = true ∧ b.idx.toNat ≠ frameLen b.frame - 1 ∧ b.sendEdge r = b.nextByte) ∨
    (r = true ∧ b.idx.toNat = frameLen b.frame - 1 ∧ b.sendEdge r = b.frameSent) := by
  unfold Block.sendEdge
  cases r with
  | false => simp
  | true =>
    by_cases h : b.atLastByte = true
    · exact .inr (.inr ⟨rfl, (b.atLastByte_iff).mp h, by simp [h]⟩)
    · exact .inr (.inl ⟨rfl, fun e => h ((b.atLastByte_iff).mpr e), by simp [h]⟩)

theorem Block.found_eq_some {b : Block} {x : Value} :
    b.found = some x ↔ b.wake = true ∧ tblRead b.table (b.c, b.a) = some x := by
  cases h : b.wake <;> simp [Block.found, h]

theorem Block.found_eq_none {b : Block} :
    b.found = none ↔ (b.wake = true → tblRead b.table (b.c, b.a) = none) := by
  cases h : b.wake <;> simp [Block.found, h]

/-- Field by field, "keep waiting" (R139, R140): `wake` ends clear, the timer counts a tick. -/
theorem Block.keepWaiting_eq (b : Block) (tick : Bool) :
    b.keepWaiting tick = { b with wake := false, timer := if tick then b.timer - 1 else b.timer } := by
  obtain ⟨_, _, _, _, _, _, _, _, _, _, _, wake, _, _, _, _, _, _, _, _⟩ := b
  cases wake <;> cases tick <;> rfl

/-- An edge in WAIT (R138, R139, R141 to R143): found, expired, or kept waiting. -/
theorem Block.waitEdge_cases (b : Block) (tick : Bool) :
    (∃ x, b.wake = true ∧ tblRead b.table (b.c, b.a) = some x ∧
      b.waitEdge tick = (b.discard (b.c, b.a)).complete (foundStatus b.op x b.v) x) ∨
    ((b.wake = true → tblRead b.table (b.c, b.a) = none) ∧ b.timer = 0 ∧
      b.waitEdge tick = b.complete .timeout 0) ∨
    ((b.wake = true → tblRead b.table (b.c, b.a) = none) ∧ b.timer ≠ 0 ∧
      b.waitEdge tick = b.keepWaiting tick) := by
  unfold Block.waitEdge
  cases h : b.found with
  | some x =>
    have hx := Block.found_eq_some.mp h
    exact .inl ⟨x, hx.1, hx.2, rfl⟩
  | none =>
    have hx := Block.found_eq_none.mp h
    by_cases ht : b.timer = 0
    · exact .inr (.inl ⟨hx, ht, if_pos ht⟩)
    · exact .inr (.inr ⟨hx, ht, if_neg ht⟩)

/-- An edge in RESP (R144). -/
theorem Block.respEdge_cases (b : Block) (r : Bool) :
    (r = false ∧ b.respEdge r = b) ∨ (r = true ∧ b.respEdge r = b.release) := by
  cases r <;> simp [Block.respEdge]

end Sys2Proof.Machine
end

