-- ==== Sys2Proof/Laws/Codec.lean ====
section
/-! SUPPORT. The laws of the field functions: the packing and the split are inverted by their decoders
(`40_codec.md` R100 to R103), the encoders have the lengths of the table, and a shape says the length. -/

namespace Sys2Proof

/-- The zero-extended group is the group again: bit 7 of an encoded field byte is 0 (R71). -/
@[simp] theorem group7_zext8 (g : BitVec 7) : group7 (zext8 g) = g := by
  apply BitVec.eq_of_toNat_eq
  simp only [group7, zext8, BitVec.toNat_setWidth]
  have := g.isLt
  omega

/-- `joinAddr(splitAddr(a)) = a` (R102, R103). -/
theorem joinAddr_split (a : Addr) : joinAddr (splitHigh a) (splitLow a) = a := by
  apply BitVec.eq_of_toNat_eq
  simp only [joinAddr, splitHigh, splitLow, group7_zext8, BitVec.toNat_ofNat, BitVec.extractLsb'_toNat,
    Nat.shiftRight_eq_div_pow]
  have := a.isLt
  omega

/-- The groups of a 35-bit pattern add up to it (R79). -/
theorem accumulate35_slices (s : BitVec 35) :
    accumulate35 ⟨slice7 s 4, slice7 s 3, slice7 s 2, slice7 s 1, slice7 s 0⟩ = s.toNat := by
  simp only [accumulate35, slice7, group7_zext8, BitVec.extractLsb'_toNat, Nat.shiftRight_eq_div_pow]
  have := s.isLt
  omega

/-- The low 32 bits of the 35-bit sign extension are the value (R79, `90_conflicts.md` C6). -/
theorem setWidth_signExtend35 (v : Value) : (v.signExtend 35).setWidth 32 = v := by
  ext i hi
  simp [BitVec.getElem_setWidth, BitVec.getLsbD_signExtend, hi]
  omega

/-- `unpackValue(packValue(v)) = v` (R100, R101). -/
theorem unpackValue_packValue (v : Value) : unpackValue (packValue v) = v := by
  have h : accumulate35 (packValue v) = (v.signExtend 35).toNat := accumulate35_slices _
  rw [unpackValue, h]
  exact (setWidth_signExtend35 v)

/-- A laid frame has the length asked for, where the fixed bytes fit in it. -/
theorem layFrame_length (len : Nat) (head : Frame) (fields : List (Nat × Byte)) (h : head.length ≤ len) :
    (layFrame len head fields).length = len := by
  have fold : ∀ f : Frame, (fields.foldl (fun f e => f.set e.1 e.2) f).length = f.length := by
    induction fields with
    | nil => exact fun _ => rfl
    | cons e rest ih => exact fun f => (ih _).trans List.length_set
  rw [layFrame, fold, List.length_append, List.length_replicate]
  omega

/-- The bytes of an encoded ChangeParameter in order, as R105 writes them. -/
theorem encodeChangeParameter_bytes (fl : Config.Fills) (p : Addr) (x : Value) (c : Channel) :
    encodeChangeParameter fl p x c =
      Wire.changeHead ++ [splitHigh p, splitLow p, fl.chg10, fl.chg11, zext8 c] ++ (packValue x).toList ++
        [fl.chg18] := rfl

/-- The bytes of an encoded QueryParameter in order, as R106 writes them. -/
theorem encodeQueryParameter_bytes (fl : Config.Fills) (p : Addr) (c : Channel) :
    encodeQueryParameter fl p c =
      Wire.queryHead ++ [splitHigh p, splitLow p, fl.qry11, fl.qry12, zext8 c, fl.qry14] := rfl

/-- The bytes of the harness's Reply in order, as R114 writes them. -/
theorem buildReplyFrame_bytes (c : Channel) (p : Addr) (x : Value) :
    buildReplyFrame c p x =
      Wire.replyHead ++ [splitHigh p, splitLow p, 0x00, 0x00, zext8 c] ++ (packValue x).toList ++ [0xF7] := rfl

/-- Length of an encoded ChangeParameter (R73). -/
theorem encodeChangeParameter_length (fl : Config.Fills) (p : Addr) (x : Value) (c : Channel) :
    (encodeChangeParameter fl p x c).length = Wire.changeLen := rfl

/-- Length of an encoded QueryParameter (R74). -/
theorem encodeQueryParameter_length (fl : Config.Fills) (p : Addr) (c : Channel) :
    (encodeQueryParameter fl p c).length = Wire.queryLen := rfl

/-- Length of the harness's Reply (R75). -/
theorem buildReplyFrame_length (c : Channel) (p : Addr) (x : Value) :
    (buildReplyFrame c p x).length = Wire.replyLen := rfl

/-- The Keepalive shape says the frame. -/
theorem isKeepalive_iff (f : Frame) : isKeepalive f = true ↔ f = Wire.keepaliveFrame := by
  simp [isKeepalive]

/-- The ChangeParameter shape: exact length and fixed bytes (R73). -/
theorem isChange_iff (f : Frame) :
    isChange f = true ↔ f.length = Wire.changeLen ∧ f.take 8 = Wire.changeHead := by
  simp [isChange, headMatches, Wire.changeHead]

/-- The QueryParameter shape: exact length and fixed bytes (R74). -/
theorem isQuery_iff (f : Frame) :
    isQuery f = true ↔ f.length = Wire.queryLen ∧ f.take 9 = Wire.queryHead := by
  simp [isQuery, headMatches, Wire.queryHead]

/-- The ReplyParameter shape: exact length and fixed bytes (R75). -/
theorem isReply_iff (f : Frame) :
    isReply f = true ↔ f.length = Wire.replyLen ∧ f.take 9 = Wire.replyHead := by
  simp [isReply, headMatches, Wire.replyHead]

end Sys2Proof
end

