-- ==== Sys2Proof/Laws/Step.lean ====
section
/-! SUPPORT. The step as a function of the block: the two paths of an edge as updates of the block, and the step in
terms of them. The meanings are unfolded here once. -/

namespace Sys2Proof.Machine

/-- What a received message does to the block (R146 to R148). -/
def Block.receive (b : Block) : Msg → Block
  | .keepalive => b.observe .keepalive 0 0 0
  | .changeParameter ch p x => b.observe .change ch p x
  | .queryParameter ch p => b.observe .query ch p 0
  | .replyParameter ch p x => (b.observe .reply ch p x).insertReply (ch, p) x
  | .unknown _ => b.observe .unknown 0 0 0

/-- What an accepted command does to the block (R130). -/
def Block.command (b : Block) (w : CommandWord) : Block :=
  match opOfBits w.op with
  | .keepalive => b.accept .keepalive .ka w.addr w.channel w.value w.timeout
  | .change => b.accept .change .chg w.addr w.channel w.value w.timeout
  | .query => (b.accept .query .qry w.addr w.channel w.value w.timeout).discard (w.channel, w.addr)
  | .setConfirm => b.accept .setConfirm .chg w.addr w.channel w.value w.timeout

/-- The caller path's edge on the block (R150). -/
def Block.callerEdge (b : Block) (I : Inputs) : Block :=
  match b.fsm with
  | .idle => if I.cmd_valid then b.command I.commandWord else b
  | .send => b.sendEdge I.tx_ready
  | .wait => b.waitEdge I.tick
  | .resp => b.respEdge I.rsp_ready

/-- The listener path's edge on the block (R150). -/
def Block.listenerEdge (b : Block) (I : Inputs) : Block :=
  if I.rx_valid then
    if I.rx_last then b.receive (b.rxMessage I.rx_data) else b.noFrame.keepByte I.rx_data
  else b.noFrame

/-- A received message's instruction is executed as `Block.receive` says. -/
theorem exec_toInstr (m : Msg) (s : State) : exec m.toInstr s = .next (s.withBlock (s.block.receive m)) := by
  cases m <;> rfl

/-- An offered command is executed, in IDLE, as `Block.command` says. -/
theorem exec_decodeCommand (w : CommandWord) (s : State) (h : s.block.fsm = .idle) :
    exec (decodeCommand w) s = .next (s.withBlock (s.block.command w)) := by
  unfold decodeCommand Block.command opOfBits
  split
  · simp [exec, execCmdKeepalive, whenIdle, h]
  · split
    · simp [exec, execCmdChange, whenIdle, h]
    · split
      · simp [exec, execCmdQuery, whenIdle, h]
      · simp [exec, execCmdSetConfirm, whenIdle, h]

theorem callerPath_eq (I : Inputs) (s : State) :
    callerPath I s = .next (s.withBlock (s.block.callerEdge I)) := by
  unfold callerPath Block.callerEdge
  cases h : s.block.fsm with
  | idle =>
    cases hv : I.cmd_valid with
    | false => rfl
    | true => simpa using exec_decodeCommand I.commandWord s h
  | send => rfl
  | wait => rfl
  | resp => rfl

theorem listenerPath_eq (I : Inputs) (s : State) :
    listenerPath I s = .next (s.withBlock (s.block.listenerEdge I)) := by
  unfold listenerPath Block.listenerEdge
  cases I.rx_valid with
  | false => rfl
  | true =>
    cases I.rx_last with
    | false => rfl
    | true => simpa using exec_toInstr (s.block.rxMessage I.rx_data) s

/-- The step at an edge with `rst` = 1 (R190). -/
theorem step_of_rst {s : State} (h : s.input.rst = true) :
    step s = .next (s.withBlock Block.reset).advance := by
  simp [step, clockEdge, h]

/-- The step at any other edge: the caller path, then the listener path (R150, log 4). -/
theorem step_of_running {s : State} (h : s.input.rst = false) :
    step s = .next (s.withBlock ((s.block.callerEdge s.input).listenerEdge s.input)).advance := by
  simp [step, clockEdge, h, callerPath_eq, listenerPath_eq]

/-- Every way an edge of the caller path can go, and the block it leaves (R130, R135, R136, R138 to R144). -/
inductive CallerCase (b : Block) (I : Inputs) : Block → Prop where
  | rest (hf : b.fsm = .idle) (hv : I.cmd_valid = false) : CallerCase b I b
  | plain (o : Op) (sel : FrameSel) (hf : b.fsm = .idle) (hv : I.cmd_valid = true) (ho : opOfBits I.cmd_op = o)
      (hs : (o = .keepalive ∧ sel = .ka) ∨ (o = .change ∧ sel = .chg) ∨ (o = .setConfirm ∧ sel = .chg)) :
      CallerCase b I (b.accept o sel I.cmd_addr I.cmd_channel I.cmd_value I.cmd_timeout)
  | query (hf : b.fsm = .idle) (hv : I.cmd_valid = true) (ho : opOfBits I.cmd_op = .query) :
      CallerCase b I
        ((b.accept .query .qry I.cmd_addr I.cmd_channel I.cmd_value I.cmd_timeout).discard
          (I.cmd_channel, I.cmd_addr))
  | stall (hf : b.fsm = .send) (hv : I.tx_ready = false) : CallerCase b I b
  | byte (hf : b.fsm = .send) (hv : I.tx_ready = true) (hi : b.idx.toNat ≠ frameLen b.frame - 1) :
      CallerCase b I b.nextByte
  | sent (hf : b.fsm = .send) (hv : I.tx_ready = true) (hi : b.idx.toNat = frameLen b.frame - 1)
      (hs : b.frame = .ka ∨ (b.frame = .chg ∧ b.op = .change)) : CallerCase b I (b.complete .sent 0)
  | confirm (hf : b.fsm = .send) (hv : I.tx_ready = true) (hi : b.idx.toNat = frameLen b.frame - 1)
      (hs : b.frame = .chg) (ho : b.op ≠ .change) : CallerCase b I (b.startQuery.discard (b.c, b.a))
  | await (hf : b.fsm = .send) (hv : I.tx_ready = true) (hi : b.idx.toNat = frameLen b.frame - 1)
      (hs : b.frame = .qry) : CallerCase b I b.enterWait
  | found (x : Value) (hf : b.fsm = .wait) (hw : b.wake = true) (hx : tblRead b.table (b.c, b.a) = some x) :
      CallerCase b I ((b.discard (b.c, b.a)).complete (foundStatus b.op x b.v) x)
  | expired (hf : b.fsm = .wait) (hx : b.wake = true → tblRead b.table (b.c, b.a) = none) (ht : b.timer = 0) :
      CallerCase b I (b.complete .timeout 0)
  | waiting (hf : b.fsm = .wait) (hx : b.wake = true → tblRead b.table (b.c, b.a) = none) (ht : b.timer ≠ 0) :
      CallerCase b I { b with wake := false, timer := if I.tick then b.timer - 1 else b.timer }
  | held (hf : b.fsm = .resp) (hv : I.rsp_ready = false) : CallerCase b I b
  | taken (hf : b.fsm = .resp) (hv : I.rsp_ready = true) : CallerCase b I b.release

/-- Each edge of the caller path goes one of these ways. -/
theorem Block.callerEdge_case (b : Block) (I : Inputs) : CallerCase b I (b.callerEdge I) := by
  unfold Block.callerEdge
  cases hf : b.fsm with
  | idle =>
    cases hv : I.cmd_valid with
    | false => exact .rest hf hv
    | true =>
      simp only [if_true, Block.command]
      cases ho : opOfBits I.commandWord.op with
      | keepalive => exact .plain .keepalive .ka hf hv ho (.inl ⟨rfl, rfl⟩)
      | change => exact .plain .change .chg hf hv ho (.inr (.inl ⟨rfl, rfl⟩))
      | query => exact .query hf hv ho
      | setConfirm => exact .plain .setConfirm .chg hf hv ho (.inr (.inr ⟨rfl, rfl⟩))
  | send =>
    dsimp only
    rcases b.sendEdge_cases I.tx_ready with ⟨hv, he⟩ | ⟨hv, hi, he⟩ | ⟨hv, hi, he⟩
    · rw [he]
      exact .stall hf hv
    · rw [he]
      exact .byte hf hv hi
    · rcases b.frameSent_cases with ⟨hs, hfs⟩ | ⟨hs, ho, hfs⟩ | ⟨hs, ho, hfs⟩ | ⟨hs, hfs⟩
      · rw [he, hfs]
        exact .sent hf hv hi (.inl hs)
      · rw [he, hfs]
        exact .sent hf hv hi (.inr ⟨hs, ho⟩)
      · rw [he, hfs]
        exact .confirm hf hv hi hs ho
      · rw [he, hfs]
        exact .await hf hv hi hs
  | wait =>
    dsimp only
    rcases b.waitEdge_cases I.tick with ⟨x, hw, hx, he⟩ | ⟨hx, ht, he⟩ | ⟨hx, ht, he⟩
    · rw [he]
      exact .found x hf hw hx
    · rw [he]
      exact .expired hf hx ht
    · rw [he, b.keepWaiting_eq]
      exact .waiting hf hx ht
  | resp =>
    dsimp only
    rcases b.respEdge_cases I.rsp_ready with ⟨hv, he⟩ | ⟨hv, he⟩
    · rw [he]
      exact .held hf hv
    · rw [he]
      exact .taken hf hv

/-- Everything a step can do: reset, or the two paths. -/
theorem step_cases {s s' : State} (h : step s = .next s') :
    (s.input.rst = true ∧ s' = (s.withBlock Block.reset).advance) ∨
    (s.input.rst = false ∧
      s' = (s.withBlock ((s.block.callerEdge s.input).listenerEdge s.input)).advance) := by
  cases hr : s.input.rst with
  | true =>
    rw [step_of_rst hr] at h
    injection h with h
    exact .inl ⟨rfl, h.symm⟩
  | false =>
    rw [step_of_running hr] at h
    injection h with h
    exact .inr ⟨rfl, h.symm⟩

end Sys2Proof.Machine
end

