-- ==== Sys2Proof/Laws/Listener.lean ====
section
/-! SUPPORT. What the listener path's edge can do, said once, and how the two paths' requests combine: the listener
reads none of the elements the caller path writes, so its edge commits the caller's clear and its own insert in the
order of `20_memory.md` R56. -/

namespace Sys2Proof.Machine

/-- A received message, field by field: the `dec_*` registers show it and the inbound buffer is empty. -/
theorem Block.receive_listener (b : Block) (m : Msg) :
    (b.receive m).listener =
      { rx_buf := [], rx_len := 0, dec_valid := true, dec_kind := kindOf m, dec_channel := (fieldsOrZero m).1,
        dec_param := (fieldsOrZero m).2.1, dec_value := (fieldsOrZero m).2.2 } := by
  cases m <;> rfl

/-- A received message leaves the caller path's elements alone. -/
theorem Block.receive_caller (b : Block) (m : Msg) : (b.receive m).caller = b.caller := by
  cases m <;> rfl

/-- The listener path's edge leaves the caller path's elements alone (`60_exceptions.md` R173). -/
theorem Block.listenerEdge_caller (b : Block) (I : Inputs) : (b.listenerEdge I).caller = b.caller := by
  unfold Block.listenerEdge
  split
  · split
    · exact Block.receive_caller _ _
    · rfl
  · rfl

/-- The edge of the listener path as a case list (R145, R146, R149). -/
theorem Block.listenerEdge_cases (b : Block) (I : Inputs) :
    (I.rx_valid = false ∧ b.listenerEdge I = b.noFrame) ∨
    (I.rx_valid = true ∧ I.rx_last = false ∧ b.listenerEdge I = b.noFrame.keepByte I.rx_data) ∨
    (I.rx_valid = true ∧ I.rx_last = true ∧ b.listenerEdge I = b.receive (b.rxMessage I.rx_data)) := by
  unfold Block.listenerEdge
  cases I.rx_valid <;> cases I.rx_last <;> simp

/-- The inbound count always fits its 5 bits (R145). -/
theorem Block.rxCount_toNat (b : Block) : (BitVec.ofNat 5 b.rxCount).toNat = b.rxCount := by
  have : b.rxCount ≤ 21 := by simp [Block.rxCount, Config.rxLenSat]
  rw [BitVec.toNat_ofNat]
  omega

/-- The message completed at an edge depends only on the inbound buffer and the vector. -/
theorem Block.completed_congr {b b' : Block} (hb : b.rx_buf = b'.rx_buf) (hl : b.rx_len = b'.rx_len)
    (I : Inputs) : b.completed I = b'.completed I := by
  simp [Block.completed, Block.rxMessage, Block.rxBytes, Block.rxCount, hb, hl]

theorem Block.insertAsked_congr {b b' : Block} (hb : b.rx_buf = b'.rx_buf) (hl : b.rx_len = b'.rx_len)
    (I : Inputs) : b.insertAsked I = b'.insertAsked I := by
  simp [Block.insertAsked, Block.completed_congr hb hl]

/-- An insert is asked for exactly when a Reply completes (R147). -/
theorem Block.insertAsked_eq_some {b : Block} {I : Inputs} {k : Key} {x : Value} :
    b.insertAsked I = some (k, x) ↔ b.completed I = some (.replyParameter k.1 k.2 x) := by
  unfold Block.insertAsked
  rcases h : b.completed I with _ | m
  · simp
  · cases m with
    | replyParameter ch p y =>
      obtain ⟨k1, k2⟩ := k
      simp only [Option.some.injEq, Prod.mk.injEq, Msg.replyParameter.injEq]
      tauto
    | keepalive => simp
    | changeParameter ch p y => simp
    | queryParameter ch p => simp
    | unknown raw => simp

/-- The shared elements after the listener path's edge: its insert over what the caller path left (R56, R147). -/
theorem Block.listenerEdge_shared (b : Block) {I : Inputs} (hr : I.rst = false) :
    (∀ k, tblRead (b.listenerEdge I).table k = entryAfter (tblRead b.table k) none (b.insertAsked I) k) ∧
      (b.listenerEdge I).wake = (b.wake || (b.insertAsked I).isSome) := by
  rcases b.listenerEdge_cases I with ⟨hv, he⟩ | ⟨hv, hl, he⟩ | ⟨hv, hl, he⟩
  · rw [he]
    simp [Block.insertAsked, Block.completed, Inputs.completesFrame, hv, entryAfter]
  · rw [he]
    simp [Block.insertAsked, Block.completed, Inputs.completesFrame, hv, hl, entryAfter]
  · rw [he]
    have hc : b.completed I = some (b.rxMessage I.rx_data) := by
      simp [Block.completed, Inputs.completesFrame, hr, hv, hl]
    unfold Block.insertAsked
    rw [hc]
    cases b.rxMessage I.rx_data with
    | replyParameter ch p y =>
      refine ⟨fun k => ?_, by simp [Block.receive]⟩
      by_cases hk : (ch, p) = k
      · subst hk
        simp [Block.receive, entryAfter]
      · simp [Block.receive, entryAfter, hk, tblRead_tblWrite_other _ y (Ne.symm hk)]
    | keepalive => simp [Block.receive, entryAfter]
    | changeParameter ch p y => simp [Block.receive, entryAfter]
    | queryParameter ch p => simp [Block.receive, entryAfter]
    | unknown raw => simp [Block.receive, entryAfter]

/-- The caller path's edge never touches the inbound buffer. -/
theorem Block.callerEdge_listener (b : Block) (I : Inputs) : (b.callerEdge I).listener = b.listener := by
  generalize hb : b.callerEdge I = b1
  have h : CallerCase b I b1 := hb ▸ b.callerEdge_case I
  cases h <;> rfl

/-- How the paths combine (R56): if the caller path has left the inbound buffer alone, cleared `clr` and done its clear
of `wake`, then the whole edge commits these requests and the listener's own. -/
theorem Block.commits_of_caller {b b1 : Block} {I : Inputs} {clr : Option Key} {wclr : Bool}
    (hr : I.rst = false) (hb : b1.listener = b.listener)
    (ht : ∀ k, tblRead b1.table k = if clr = some k then none else tblRead b.table k)
    (hw : b1.wake = (b.wake && !wclr)) : b.commits (b1.listenerEdge I) I clr wclr := by
  have hbuf : b1.rx_buf = b.rx_buf := congrArg ListenerRegs.rx_buf hb
  have hlen : b1.rx_len = b.rx_len := congrArg ListenerRegs.rx_len hb
  have hi : b1.insertAsked I = b.insertAsked I := Block.insertAsked_congr hbuf hlen I
  obtain ⟨h1, h2⟩ := b1.listenerEdge_shared hr
  refine ⟨fun k => ?_, ?_⟩
  · rw [h1 k, hi, ht k]
    cases b.insertAsked I with
    | none => simp [entryAfter]
    | some e => simp [entryAfter]
  · rw [h2, hi, hw]

/-- A clear in the form the requests use. -/
theorem tblRead_tblClear_if (T : Table) (k k' : Key) :
    tblRead (tblClear T k) k' = if some k = some k' then none else tblRead T k' := by
  by_cases h : k = k'
  · subst h
    simp
  · have h' : some k ≠ some k' := fun e => h (Option.some.inj e)
    rw [if_neg h', tblRead_tblClear_other T (Ne.symm h)]

end Sys2Proof.Machine
end

