-- ==== Sys2Proof/Laws/PerInstr.lean ====
section
/-! SUPPORT. The family EncodedShape: what the encoder makes of each instruction has the shape its row of the opcode
table gives (length of the frame, or value of `cmd_op`). -/

namespace Sys2Proof.Laws

/-- The shape the opcode table gives the row: the frame's length, or the selector; an Unknown has any length. -/
def EncodedShape.Fits : Instr → Packet → Prop
  | .keepalive, .frame f => f.length = 9
  | .changeParameter _ _ _, .frame f => f.length = 19
  | .queryParameter _ _, .frame f => f.length = 15
  | .replyParameter _ _ _, .frame f => f.length = 20
  | .unknown raw, .frame f => f = raw
  | .cmdKeepalive _ _ _ _, .command w => w.op = 0b00
  | .cmdChange _ _ _ _, .command w => w.op = 0b01
  | .cmdQuery _ _ _ _, .command w => w.op = 0b10
  | .cmdSetConfirm _ _ _ _, .command w => w.op = 0b11
  | _, _ => False

/-- The encoder's packet has the row's shape, whatever the fill bytes. -/
def EncodedShape.Statement (i : Instr) : Prop := ∀ fl : Config.Fills, EncodedShape.Fits i (encode fl i)

theorem EncodedShape.keepalive : EncodedShape.Statement .keepalive := fun _ => rfl
theorem EncodedShape.changeParameter (ch : Channel) (p : Addr) (x : Value) :
    EncodedShape.Statement (.changeParameter ch p x) := fun _ => rfl
theorem EncodedShape.queryParameter (ch : Channel) (p : Addr) :
    EncodedShape.Statement (.queryParameter ch p) := fun _ => rfl
theorem EncodedShape.replyParameter (ch : Channel) (p : Addr) (x : Value) :
    EncodedShape.Statement (.replyParameter ch p x) := fun _ => rfl
theorem EncodedShape.unknown (raw : Frame) : EncodedShape.Statement (.unknown raw) := fun _ => rfl
theorem EncodedShape.cmdKeepalive (a : Addr) (c : Channel) (v : Value) (t : Ticks) :
    EncodedShape.Statement (.cmdKeepalive a c v t) := fun _ => rfl
theorem EncodedShape.cmdChange (a : Addr) (c : Channel) (v : Value) (t : Ticks) :
    EncodedShape.Statement (.cmdChange a c v t) := fun _ => rfl
theorem EncodedShape.cmdQuery (a : Addr) (c : Channel) (v : Value) (t : Ticks) :
    EncodedShape.Statement (.cmdQuery a c v t) := fun _ => rfl
theorem EncodedShape.cmdSetConfirm (a : Addr) (c : Channel) (v : Value) (t : Ticks) :
    EncodedShape.Statement (.cmdSetConfirm a c v t) := fun _ => rfl

end Sys2Proof.Laws
end

