-- ==== Sys2Proof/Laws/Run.lean ====
section
/-! SUPPORT. Runs of edges: how `Host.Core.run` of this machine, and the bytes its TX port moves, unfold one edge at a
time. -/

namespace Sys2Proof.Machine

/-- No edge. -/
theorem run_zero (s : State) : Host.Core.run Sys2Proof.core 0 s = .next s := rfl

/-- One edge more, where the step is known. -/
theorem run_next {s t : State} (n : Nat) (h : step s = .next t) :
    Host.Core.run Sys2Proof.core (n + 1) s = Host.Core.run Sys2Proof.core n t := by
  have h' : Sys2Proof.core.step s = .next t := h
  simp only [Host.Core.run, h']

/-- A foreseen vector without reset: the edge on the block, and the rest of the script (R150). -/
theorem step_of_script {s : State} {I : Inputs} {rest : List Inputs} (hs : s.script = I :: rest)
    (hr : I.rst = false) :
    step s = .next {
      block := (s.block.callerEdge I).listenerEdge I, script := rest, edge := s.edge + 1 } := by
  have hi := State.input_of_script hs
  rw [step_of_running (by rw [hi]; exact hr), hi]
  simp [State.advance, State.withBlock, hs]

/-- At the first edge the TX port moves what the state and its vector say. -/
@[simp] theorem txMoved_zero (s : State) : txMoved s 0 = s.block.txTransfer s.input := rfl

/-- One edge later, where the step is known. -/
theorem txMoved_succ {s t : State} (i : Nat) (h : step s = .next t) : txMoved s (i + 1) = txMoved t i := by
  simp only [txMoved, run_next i h]

/-- No edge moves no byte. -/
@[simp] theorem txTrace_zero (s : State) : txTrace 0 s = [] := rfl

/-- The bytes of a run are its first edge's byte, if any, and those of the rest of the run. -/
theorem txTrace_next {s t : State} (n : Nat) (h : step s = .next t) :
    txTrace (n + 1) s = (s.block.txTransfer s.input).toList ++ txTrace n t := by
  have hm : txMoved s ∘ Nat.succ = txMoved t := funext fun i => txMoved_succ i h
  rw [txTrace, List.range_succ_eq_map, List.filterMap_cons, List.filterMap_map, hm, txMoved_zero]
  cases s.block.txTransfer s.input <;> rfl

end Sys2Proof.Machine
end

