-- ==== Sys2Proof/Machine/Harness.lean ====
section
/-! DEFINITION. The textual syntax of `30_encoding.md` R87 as input vectors: one line per command or port event.
Outside the block: it says how a program of `95_test_vectors.md` reaches the ports, and no instruction uses it
(log 19). -/

namespace Sys2Proof.Machine

/-- One program line (R87). -/
inductive ProgramLine where
  | keepalive
  | change (addr : Addr) (value : Value) (channel : Channel)
  | query (addr : Addr) (channel : Channel) (timeout : Ticks)
  | setAndConfirm (addr : Addr) (value : Value) (channel : Channel) (timeout : Ticks)
  | rx (f : Frame)
  | idle (n : Nat)
deriving DecidableEq, Repr

/-- A vector with `tx_ready`, `rsp_ready` and `tick` asserted, the convention of `95_test_vectors.md`. -/
def Inputs.ready (I : Inputs) : Inputs := { I with tx_ready := true, rsp_ready := true, tick := true }

/-- The vectors that present a frame one byte per cycle, `rx_last` on the last byte (R87, `60_exceptions.md` R178). -/
def receiveVectors : Frame → List Inputs
  | [] => []
  | b :: rest => Inputs.receiving b rest.isEmpty :: receiveVectors rest

/-- The command word of a command line; operands the line does not name are 0. -/
def ProgramLine.command : ProgramLine → Option CommandWord
  | .keepalive => some { op := 0b00, addr := 0, channel := 0, value := 0, timeout := 0 }
  | .change a v c => some { op := 0b01, addr := a, channel := c, value := v, timeout := 0 }
  | .query a c t => some { op := 0b10, addr := a, channel := c, value := 0, timeout := t }
  | .setAndConfirm a v c t => some { op := 0b11, addr := a, channel := c, value := v, timeout := t }
  | .rx _ => none
  | .idle _ => none

/-- The vectors of a line: a command is offered at one edge, a frame takes a cycle per byte, `idle n` takes n. -/
def ProgramLine.vectors (l : ProgramLine) : List Inputs :=
  match l with
  | .rx f => receiveVectors f
  | .idle n => List.replicate n Inputs.quiet
  | .keepalive => (l.command.map Inputs.offering).toList
  | .change _ _ _ => (l.command.map Inputs.offering).toList
  | .query _ _ _ => (l.command.map Inputs.offering).toList
  | .setAndConfirm _ _ _ _ => (l.command.map Inputs.offering).toList

end Sys2Proof.Machine
end

