-- ==== Sys2Proof/Tests/Slice0.lean ====
section
/-! SUPPORT. Small checks of the model, each expected value taken from `spec/` and not from the model, then, for every
obligation that has hypotheses, a concrete case that meets them (the theorems named `witness_`). -/

namespace Sys2Proof.Tests

open Sys2Proof.Machine

/-! ### Widths (`00_scope.md` R7) -/

theorem test_widths :
    Addr = BitVec Config.addrW ∧ Channel = BitVec Config.chW ∧ Value = BitVec Config.valueW ∧
      Ticks = BitVec Config.timeoutW := ⟨rfl, rfl, rfl, rfl⟩

theorem test_sizes :
    Config.keySpace = 2 ^ Config.chW * 2 ^ Config.addrW ∧ (packValue 0).toList.length = Config.groups ∧
      Config.rxCap = Wire.replyLen ∧ Config.rxLenSat = Config.rxCap + 1 := by decide

/-! ### WellFormed: an Unknown term is refused for the bytes of each recognised shape (R76) -/

/-- Keepalive (V-D2). -/
def frameKa : Frame := [0xF0, 0x43, 0x10, 0x3E, 0x14, 0x00, 0x04, 0x02, 0xF7]
/-- The Change frame of V-D7. -/
def frameChg : Frame :=
  [0xF0, 0x43, 0x10, 0x3E, 0x14, 0x01, 0x01, 0x00, 0x00, 0x07, 0x00, 0x00, 0x00, 0x00, 0x00, 0x00, 0x00, 0x67, 0xF7]
/-- The Query frame of V-D15. -/
def frameQry : Frame :=
  [0xF0, 0x43, 0x30, 0x3E, 0x14, 0x01, 0x04, 0x02, 0x00, 0x00, 0x07, 0x00, 0x00, 0x00, 0xF7]
/-- The Reply frame of V-D12. -/
def frameRep : Frame :=
  [0xF0, 0x43, 0x10, 0x3E, 0x14, 0x01, 0x04, 0x02, 0x00, 0x00, 0x07, 0x00, 0x00, 0x00, 0x00, 0x00, 0x00, 0x00, 0x67,
    0xF7]

theorem test_ill_formed_keepalive : (Instr.unknown frameKa).wellFormed = false := by decide
theorem test_ill_formed_change : (Instr.unknown frameChg).wellFormed = false := by decide
theorem test_ill_formed_query : (Instr.unknown frameQry).wellFormed = false := by decide
theorem test_ill_formed_reply : (Instr.unknown frameRep).wellFormed = false := by decide
theorem test_well_formed_unknown :
    (Instr.unknown []).wellFormed = true ∧ (Instr.unknown (frameRep ++ [0xF7])).wellFormed = true := by decide

/-! ### Field functions (`95_test_vectors.md` V-C1 to V-C4) -/

theorem test_pack :
    (packValue 305419896).toList = [0x01, 0x11, 0x51, 0x2C, 0x78] ∧
      (packValue (BitVec.ofInt 32 (-305419896))).toList = [0x7E, 0x6E, 0x2E, 0x53, 0x08] ∧
      (packValue (BitVec.ofInt 32 (-1000))).toList = [0x7F, 0x7F, 0x7F, 0x78, 0x18] := by decide

theorem test_unpack :
    (unpackValue ⟨0x7F, 0x00, 0x00, 0x00, 0x00⟩).toInt = -268435456 ∧
      (unpackValue ⟨0x70, 0x00, 0x00, 0x00, 0x00⟩).toInt = 0 ∧
      (unpackValue ⟨0x08, 0x00, 0x00, 0x00, 0x00⟩).toInt = -2147483648 ∧
      (unpackValue ⟨0x80, 0x80, 0x80, 0x80, 0x81⟩).toInt = 1 := by decide

theorem test_addresses :
    (splitHigh 4660, splitLow 4660) = (0x24, 0x34) ∧ (splitHigh 8192, splitLow 8192) = (0x40, 0x00) ∧
      joinAddr 0x24 0x34 = 4660 ∧ joinAddr 0x80 0x00 = 0 ∧ joinAddr 0xFF 0xFF = 16383 := by decide

/-! ### Encoders (V-E1 to V-E8) -/

theorem test_encoders :
    encodeKeepalive = frameKa ∧ encodeChangeParameter Config.fills 7 103 0 = frameChg ∧
      encodeQueryParameter Config.fills 7 0 = frameQry ∧ buildReplyFrame 0 7 103 = frameRep := by decide

/-! ### Decoding (`95_test_vectors.md` 2.4, and the rows of the opcode table) -/

theorem test_decode_shapes :
    decode frameKa = .keepalive ∧ decode frameChg = .changeParameter 0 7 103 ∧
      decode frameQry = .queryParameter 0 7 ∧ decode frameRep = .replyParameter 0 7 103 := by decide

/-- V-D1, V-D3 to V-D6, V-D8 to V-D11, V-D13, V-D14, V-D16 to V-D19. -/
theorem test_decode_unknown :
    ([[], frameKa.set 8 0x00, frameKa.dropLast, frameKa ++ [0xF7], frameKa.set 5 0x01, frameChg.dropLast,
      frameChg ++ [0x00], frameChg.set 7 0x02, frameRep.dropLast, frameRep ++ [0xF7], frameRep.set 2 0x30,
      frameQry.dropLast, frameQry ++ [0x00], frameQry.set 2 0x10, frameRep.set 0 0xF1] : List Frame).all
        (fun f => decode f == .unknown f) = true := by decide

/-- The selectors of R83, with the operand ports at zero. -/
theorem test_table_commands :
    decodeTableWord 8 0 = some (.cmdKeepalive 0 0 0 0) ∧ decodeTableWord 8 1 = some (.cmdChange 0 0 0 0) ∧
      decodeTableWord 8 2 = some (.cmdQuery 0 0 0 0) ∧ decodeTableWord 8 3 = some (.cmdSetConfirm 0 0 0 0) := by
  decide

/-- The bytes of R108 and of the examples of R109 to R112, the first byte least significant. -/
theorem test_table_keepalive : decodeTableWord 72 0xF7020400143E1043F0 = some .keepalive := by decide
theorem test_table_change :
    decodeTableWord 152 0xF77F7F7F7F7F0200003424000101143E1043F0 =
      some (.changeParameter 2 4660 (BitVec.ofInt 32 (-1))) := by decide
theorem test_table_query :
    decodeTableWord 120 0xF77F00007F7F00020401143E3043F0 = some (.queryParameter 127 16383) := by decide
theorem test_table_reply :
    decodeTableWord 160 0xF76700000000000000070000020401143E1043F0 = some (.replyParameter 0 7 103) := by decide
theorem test_table_unknown :
    decodeTableWord 72 0x00020400143E1043F0 = some (.unknown (frameKa.set 8 0x00)) ∧
      decodeTableWord 0 0 = some (.unknown []) := by decide

/-! ### One step of each instruction, from reset -/

/-- What a step leaves of the block. -/
def after (s : State) : Option Block :=
  match step s with
  | .next t => some t.block
  | .fault _ => none
  | .refused _ => none

theorem test_reset_table : Memory.wf State.reset.block.table = true := by decide

theorem test_step_keepalive :
    (after (State.reset.withFetchWord 72 0xF7020400143E1043F0)).map
        (fun b => (b.dec_valid, b.dec_kind, b.rx_len, b.wake)) = some (true, .keepalive, 0, false) := by decide
theorem test_step_change :
    (after (State.reset.withFetchWord 152 0xF77F7F7F7F7F0200003424000101143E1043F0)).map
        (fun b => (b.dec_kind, b.dec_channel, b.dec_param, b.dec_value.toInt, b.wake)) =
      some (.change, 2, 4660, -1, false) := by decide
theorem test_step_query :
    (after (State.reset.withFetchWord 120 0xF77F00007F7F00020401143E3043F0)).map
        (fun b => (b.dec_kind, b.dec_channel, b.dec_param, b.dec_value, b.wake)) =
      some (.query, 127, 16383, 0, false) := by decide
theorem test_step_reply :
    (after (State.reset.withFetchWord 160 0xF76700000000000000070000020401143E1043F0)).map
        (fun b => (b.dec_kind, tblRead b.table (0, 7), tblRead b.table (7, 0), b.wake)) =
      some (.reply, some 103, none, true) := by decide
theorem test_step_unknown :
    (after (State.reset.withFetchWord 168 0xF7F76700000000000000070000020401143E1043F0)).map
        (fun b => (b.dec_kind, b.dec_param, tblRead b.table (0, 7), b.wake)) =
      some (.unknown, 0, none, false) := by decide
theorem test_step_cmd_keepalive :
    (after (State.reset.withFetchWord 8 0)).map (fun b => (b.fsm, b.frame, b.op, b.idx)) =
      some (.send, .ka, .keepalive, 0) := by decide
/-- The operands of R132's example, in the layout of log 6. -/
theorem test_step_cmd_change :
    (after (State.reset.withFetchWord 8 (1 + 4660 * 2 ^ 2 + 2 * 2 ^ 16 + 4294967295 * 2 ^ 23))).map
        (fun b => (b.frame, b.op, b.a, b.c, b.v.toInt)) = some (.chg, .change, 4660, 2, -1) := by decide

/-- A block with an entry for address 7, channel 0 and `wake` up. -/
def holding : Block := { Block.reset with table := [(7, 103)], wake := true }
/-- A machine whose next edge samples this vector. -/
def sampling (b : Block) (I : Inputs) : State := { block := b, script := [I], edge := 0 }

theorem test_step_cmd_query :
    (after ((sampling holding Inputs.quiet).withFetchWord 8 (2 + 7 * 2 ^ 2 + 3 * 2 ^ 55))).map
        (fun b => (b.frame, b.op, b.t, tblRead b.table (0, 7), b.wake)) =
      some (.qry, .query, 3, none, false) := by decide
theorem test_step_cmd_set_confirm :
    (after ((sampling holding Inputs.quiet).withFetchWord 8 (3 + 7 * 2 ^ 2))).map
        (fun b => (b.frame, b.op, tblRead b.table (0, 7), b.wake)) =
      some (.chg, .setConfirm, some 103, true) := by decide

/-! ### Helpers for the witnesses -/

/-- A block in SEND. -/
def sending (sel : FrameSel) (op : Op) (i : BitVec 5) : Block :=
  { Block.reset with fsm := .send, frame := sel, op := op, idx := i, a := 7, v := 103, t := 3 }
/-- A block in WAIT for address 7, channel 0. -/
def waiting (op : Op) (timer : Ticks) (wake : Bool) (T : Table) : Block :=
  { Block.reset with fsm := .wait, frame := .qry, op := op, a := 7, v := 103, t := 3, timer := timer, wake := wake,
                     table := T }
/-- A block in RESP. -/
def responding : Block := { Block.reset with fsm := .resp, op := .query, status := .value, rvalue := 103 }
/-- A block that has received these bytes of an inbound frame. -/
def receiving (f : Frame) (b : Block) : Block :=
  { b with rx_buf := f.take 20, rx_len := BitVec.ofNat 5 (min f.length 21) }
/-- Everything ready and no byte, no command. -/
def ready : Inputs := Inputs.quiet.ready
/-- A command offered with everything ready. -/
def offer (op : BitVec 2) : Inputs := (Inputs.offering ⟨op, 7, 0, 103, 3⟩).ready

/-- The key of a completed Reply. -/
def replyKey : Option Msg → Option Key
  | some (.replyParameter ch p _) => some (ch, p)
  | _ => none

theorem not_repliesFor {b : Block} {I : Inputs} {k : Key} (h : replyKey (b.completed I) ≠ some k) :
    ¬ b.repliesFor I k := by
  rintro ⟨x, hx⟩
  exact h (congrArg replyKey hx)

theorem quietFor_of_no_byte (k : Key) (Is : List Inputs) (h : ∀ I ∈ Is, I.rx_valid = false) :
    ∀ b, quietFor k b Is := by
  induction Is with
  | nil => exact fun _ => trivial
  | cons I Is ih =>
    intro b
    refine ⟨not_repliesFor ?_, ih (fun J hJ => h J (List.mem_cons_of_mem _ hJ)) _⟩
    simp [Block.completed, Inputs.completesFrame, h I List.mem_cons_self, replyKey]

theorem presents_receiveVectors (f : Frame) : presents f (receiveVectors f) := by
  induction f with
  | nil => rfl
  | cons b rest ih => exact ⟨_, _, rfl, rfl, rfl, rfl, ih⟩

theorem unreset_receiveVectors (f : Frame) : unreset (receiveVectors f) := by
  induction f with
  | nil => intro I hI; cases hI
  | cons b rest ih =>
    intro I hI
    rcases List.mem_cons.mp hI with rfl | h
    · rfl
    · exact ih I h

theorem unreset_replicate (n : Nat) (I : Inputs) (h : I.rst = false) : unreset (List.replicate n I) := by
  intro J hJ
  rw [List.eq_of_mem_replicate hJ]
  exact h

/-! ### Witnesses: the Codec -/

/-- A Change frame with every field bit set, bit 7 too. -/
def chgHigh : Frame := Wire.changeHead ++ List.replicate 11 0xFF
/-- A Query frame with every field bit set. -/
def qryHigh : Frame := Wire.queryHead ++ List.replicate 6 0xFF
/-- A Reply frame with every field bit set. -/
def repHigh : Frame := Wire.replyHead ++ List.replicate 11 0xFF

theorem witness_EncodedInstructionsDecodeBack :
    (Instr.replyParameter 127 16383 (BitVec.ofInt 32 (-2147483648))).wellFormed = true ∧
      (Instr.unknown []).wellFormed = true ∧ (Instr.cmdSetConfirm 16383 127 0 0).wellFormed = true := by decide
theorem witness_ShapesAreExactAndDisjoint : isReply repHigh = true := by decide
theorem witness_FieldsStandAtTheirOffsets :
    isChange chgHigh = true ∧ isQuery qryHigh = true ∧ isReply repHigh = true := by decide
theorem witness_DecodeIgnoresBitSevenAndUnnamedBytes :
    isChange frameChg = true ∧ isQuery frameQry = true ∧ isReply frameRep = true := by decide

/-! ### Witnesses: instructions and steps -/

theorem witness_IdleCommandsExecute : State.reset.block.fsm = .idle := rfl
theorem witness_IdleQueryCommandExecutes :
    (sampling holding ready).block.fsm = .idle ∧ tblRead (sampling holding ready).block.table (0, 7) ≠ none := by decide
theorem witness_BusyBlockLeavesCommandOffered :
    (sampling (sending .ka .keepalive 0) ready).block.fsm ≠ .idle ∧
      (sampling (waiting .query 3 false []) ready).block.fsm ≠ .idle ∧
      (sampling responding ready).block.fsm ≠ .idle := by decide

theorem witness_StepRuns_command : ∃ t,
    (sampling holding (offer 0b10)).input.rst = false ∧ (sampling holding (offer 0b10)).block.fsm = .idle ∧
      (sampling holding (offer 0b10)).input.cmd_valid = true ∧
      (sampling holding (offer 0b10)).input.rx_valid = false ∧
      exec (decodeCommand (sampling holding (offer 0b10)).input.commandWord) (sampling holding (offer 0b10)) =
        .next t := ⟨_, rfl, rfl, rfl, rfl, rfl⟩
theorem witness_StepRuns_frame : ∃ t,
    let s := sampling (receiving frameRep.dropLast Block.reset) (Inputs.receiving 0xF7 true)
    s.input.rst = false ∧ s.block.fsm = .idle ∧ s.input.cmd_valid = false ∧ s.input.rx_valid = true ∧
      s.input.rx_last = true ∧ exec (s.block.rxMessage s.input.rx_data).toInstr s = .next t :=
  ⟨_, rfl, rfl, rfl, rfl, rfl, rfl⟩
theorem witness_StepRuns_both : ∃ u t,
    let s := sampling (receiving frameRep.dropLast holding)
      { offer 0b10 with rx_valid := true, rx_data := 0xF7, rx_last := true }
    s.input.rst = false ∧ s.block.fsm = .idle ∧ s.input.cmd_valid = true ∧ s.input.rx_valid = true ∧
      s.input.rx_last = true ∧ exec (decodeCommand s.input.commandWord) s = .next u ∧
      exec (s.block.rxMessage s.input.rx_data).toInstr u = .next t :=
  ⟨_, _, rfl, rfl, rfl, rfl, rfl, rfl, rfl⟩

theorem witness_PresentedInstructionRunsNext :
    State.reset.block.fsm = .idle ∧ (Instr.unknown [0x00]).wellFormed = true ∧
      Instr.unknown [0x00] ≠ .unknown [] ∧ (Instr.cmdQuery 7 0 0 3).wellFormed = true := by decide
theorem witness_ResetEdgeSetsEveryElement :
    (sampling (waiting .query 3 true [(7, 103)]) { offer 0b00 with rst := true }).input.rst = true ∧
      (sampling (sending .chg .change 18) { ready with rst := true }).input.rst = true := by decide

theorem witness_AcceptanceEdge :
    (sampling holding ready).input.rst = false ∧ (sampling holding ready).block.fsm = .idle ∧
      (sampling holding ready).input.cmd_valid = false ∧
      ([0b00, 0b01, 0b10, 0b11] : List (BitVec 2)).all (fun o =>
        let s := sampling holding (offer o)
        !s.input.rst && s.block.fsm == .idle && s.input.cmd_valid && s.input.cmd_op == o) = true := by decide
theorem witness_CommandPortIgnoredWhileBusy : ∃ t t',
    let s := sampling (waiting .query 3 false []) ready
    let s' := sampling (waiting .query 3 false []) (offer 0b10)
    s.block = s'.block ∧ s.block.fsm ≠ .idle ∧ s.input.sameButCommand s'.input ∧ step s = .next t ∧
      step s' = .next t' :=
  ⟨_, _, rfl, by decide, rfl, rfl, rfl⟩

/-- Index 0, the last index that is not the end (17 of 19), and the end itself (18), with and without `tx_ready`. -/
theorem witness_SendByteEdge :
    ([0, 17, 18] : List (BitVec 5)).all (fun i => [false, true].all (fun r =>
      let s := sampling (sending .chg .setConfirm i) { Inputs.quiet with tx_ready := r }
      !s.input.rst && s.block.fsm == .send && decide (s.block.idx.toNat < frameLen s.block.frame) &&
        s.input.tx_ready == r)) = true ∧
      (sending .chg .setConfirm 17).idx.toNat < frameLen .chg - 1 := by decide
theorem witness_SendFrameCompletionEdge :
    [sending .ka .keepalive 8, sending .chg .change 18, sending .chg .setConfirm 18, sending .qry .query 14].all (fun b =>
      let s := sampling b ready
      !s.input.rst && s.block.fsm == .send && s.input.tx_ready &&
        s.block.idx.toNat == frameLen s.block.frame - 1) = true := by decide
/-- QUERY with the budget spent (D12), SET_CONFIRM with the value asked for, and with another. -/
theorem witness_WaitFindsItsEntry :
    [(Op.query, (103 : Value), (0 : Ticks)), (.setConfirm, 103, 1), (.setConfirm, 102, 1)].all (fun w =>
      let s := sampling (waiting w.1 w.2.2 true [(7, w.2.1)]) ready
      !s.input.rst && s.block.fsm == .wait && s.block.wake &&
        tblRead s.block.table (s.block.c, s.block.a) == some w.2.1) = true := by decide
theorem witness_WaitTimesOut :
    [waiting .query 0 false [], waiting .query 0 true [(5, 1)]].all (fun b =>
      let s := sampling b ready
      !s.input.rst && s.block.fsm == .wait && s.block.timer == 0 &&
        (!s.block.wake || tblRead s.block.table (s.block.c, s.block.a) == none)) = true := by decide
/-- One tick left, with `wake` down and up, at an edge with `tick` and at one without. -/
theorem witness_WaitRetriesOnRemainingBudget :
    [waiting .query 1 false [], waiting .setConfirm 1 true [(5, 1)]].all (fun b => [false, true].all (fun k =>
      let s := sampling b { Inputs.quiet with tick := k }
      !s.input.rst && s.block.fsm == .wait && s.block.timer != 0 && s.input.tick == k &&
        (!s.block.wake || tblRead s.block.table (s.block.c, s.block.a) == none))) = true := by decide
theorem witness_ResponseHandshakeEdge :
    (sampling responding ready).input.rst = false ∧ (sampling responding ready).block.fsm = .resp ∧
      (sampling responding ready).input.rsp_ready = true ∧
      (sampling responding Inputs.quiet).input.rst = false ∧
      (sampling responding Inputs.quiet).input.rsp_ready = false := by decide

/-! ### Witnesses: the listener path -/

/-- No byte; and a byte at the counts 19, 20 and 21, where the cap and the saturation lie, ending its frame or not. -/
theorem witness_ListenerEdgeInEveryState :
    (sampling Block.reset Inputs.quiet).input.rst = false ∧
      (sampling Block.reset Inputs.quiet).input.rx_valid = false ∧
      ([19, 20, 21] : List Nat).all (fun n => [false, true].all (fun l =>
        let s := sampling (receiving (List.replicate n 0x00) (waiting .query 1 false [])) (Inputs.receiving 0xF7 l)
        !s.input.rst && s.input.rx_valid && s.input.rx_last == l && s.block.rx_len.toNat == n)) = true := by decide
theorem witness_ReplyIsInsertedInEveryState :
    let s := sampling (receiving frameRep.dropLast (waiting .query 1 true [(7, 102)])) (Inputs.receiving 0xF7 true)
    s.input.rst = false ∧ s.input.rx_valid = true ∧ s.input.rx_last = true ∧
      s.block.rxMessage s.input.rx_data = .replyParameter 0 7 103 := by decide
theorem witness_OtherFramesAreDropped : ∃ t t',
    let b := receiving frameChg.dropLast (waiting .query 1 false [])
    let s := sampling b (Inputs.receiving 0xF7 true)
    let s' := sampling b { Inputs.receiving 0xF7 true with rx_valid := false }
    s.block = s'.block ∧ s'.input = { s.input with rx_valid := false } ∧ s.input.completesFrame = true ∧
      (∀ ch p x, s.block.rxMessage s.input.rx_data ≠ .replyParameter ch p x) ∧ step s = .next t ∧ step s' = .next t' := by
  refine ⟨_, _, rfl, rfl, rfl, fun ch p x h => ?_, rfl, rfl⟩
  exact absurd (congrArg (fun m => replyKey (some m)) h) (by
    have h0 : (receiving frameChg.dropLast (waiting .query 1 false [])).rxMessage 0xF7 = .changeParameter 0 7 103 := by
      decide
    simp only [sampling, State.input, Inputs.receiving, h0, replyKey]
    exact nofun)
theorem witness_ListenerReadsOnlyItsPort : ∃ t t',
    let s := sampling Block.reset { offer 0b10 with rx_valid := true, rx_data := 0xF0 }
    let s' := sampling (waiting .query 1 false []) { ready with rx_valid := true, rx_data := 0xF0 }
    s.block.listener = s'.block.listener ∧ s.input.rst = s'.input.rst ∧ s.input.rx_valid = s'.input.rx_valid ∧
      s.input.rx_data = s'.input.rx_data ∧ s.input.rx_last = s'.input.rx_last ∧ step s = .next t ∧ step s' = .next t' :=
  ⟨_, _, rfl, rfl, rfl, rfl, rfl, rfl, rfl⟩

/-! ### Witnesses: rules over every step -/

theorem witness_SoleWriter_inserted : ∃ t,
    let s := sampling (receiving frameRep.dropLast (waiting .query 1 false [])) (Inputs.receiving 0xF7 true)
    s.input.rst = false ∧ step s = .next t ∧ tblRead t.block.table (0, 7) = some 103 ∧
      tblRead s.block.table (0, 7) ≠ some 103 := ⟨_, rfl, rfl, by decide, by decide⟩
/-- The three removals: an accepted QUERY, SET_CONFIRM's last Change byte, the pop. -/
theorem witness_SoleRemover_cleared :
    [sampling holding (offer 0b10),
      sampling { sending .chg .setConfirm 18 with table := [(7, 103)] } ready,
      sampling (waiting .query 1 true [(7, 103)]) ready].all (fun s =>
        !s.input.rst && tblRead s.block.table (0, 7) == some 103 &&
          (after s).map (fun b => tblRead b.table (0, 7)) == some none) = true := by decide
theorem witness_WakeSetAndClearRule : ∃ t,
    (sampling (waiting .query 1 true []) ready).input.rst = false ∧
      step (sampling (waiting .query 1 true []) ready) = .next t := ⟨_, rfl, rfl⟩
theorem witness_OperandsAndResultsAreHeld : ∃ t,
    let s := sampling (waiting .query 3 false []) (offer 0b00)
    s.input.rst = false ∧ step s = .next t ∧ s.block.cmdAccepted s.input = false ∧
      ¬ (s.block.fsm ≠ .resp ∧ t.block.fsm = .resp) := ⟨_, rfl, rfl, by decide, by decide⟩
/-- Entering WAIT, counting a tick, leaving WAIT, and an edge outside WAIT. -/
theorem witness_TimerRule :
    (after (sampling (sending .qry .query 14) ready)).map (·.fsm) = some .wait ∧
      (after (sampling (waiting .query 1 false []) ready)).map (·.fsm) = some .wait ∧
      (after (sampling (waiting .query 0 false []) ready)).map (·.fsm) = some .resp ∧
      (after (sampling (waiting .query 1 false []) Inputs.quiet)).map (·.fsm) = some .wait ∧
      (after (sampling responding ready)).map (·.fsm) = some .idle := by decide

/-! ### Witnesses: invariants and runs -/

theorem witness_AwaitedEntryHasRaisedWake : ∃ t,
    let s := sampling (receiving frameRep.dropLast (waiting .query 1 true [(7, 102)])) (Inputs.receiving 0xF7 true)
    s.block.wakeCovers ∧ s.block.awaiting ∧ (tblRead s.block.table s.block.key).isSome ∧ step s = .next t :=
  ⟨_, fun _ _ => rfl, .inl rfl, by decide, rfl⟩

theorem witness_EveryRunStaysSafe : ∃ t,
    (sampling (waiting .query 1 true [(7, 103)]) ready).block.Inv ∧
      Host.Core.run Sys2Proof.core 1 (sampling (waiting .query 1 true [(7, 103)]) ready) = .next t :=
  ⟨_, { legal := ⟨by decide, by decide, fun h => nomatch h⟩
        wakeCovers := fun _ _ => rfl
        sequenced := ⟨rfl, .inl rfl⟩
        resultFits := fun h => nomatch h
        decodedFits := ⟨rfl, rfl, rfl⟩
        tableWf := by decide }, rfl⟩

/-- The second machine receives the last byte of a Reply for another key; the first receives nothing. -/
theorem witness_CrossTalkIsInvisible : ∃ t t',
    let b := waiting .query 2 false []
    let s := sampling b ready
    let s' := sampling (receiving (buildReplyFrame 1 5 0).dropLast b)
      { ready with rx_valid := true, rx_data := 0xF7, rx_last := true }
    s.block.alike s'.block ∧ s.input.sameButRx s'.input ∧ step s = .next t ∧ step s' = .next t' ∧
      t.block.awaiting ∧ ¬ s.block.repliesFor s.input t.block.key ∧
      ¬ s'.block.repliesFor s'.input t.block.key :=
  ⟨_, _, ⟨rfl, fun _ h => absurd h (by decide), fun _ h => absurd h (by decide), fun _ => rfl⟩, rfl, rfl, rfl, .inl rfl,
    not_repliesFor (by decide), not_repliesFor (by decide)⟩

/-- A budget of two ticks, used up by the second of the two vectors, and the vector after them. -/
theorem witness_WaitLastsExactlyItsBudget :
    let s : State := { block := waiting .query 2 false [], script := [ready, ready] ++ [ready], edge := 0 }
    s.block.fsm = .wait ∧ tblRead s.block.table s.block.key = none ∧ unreset [ready, ready] ∧
      quietFor s.block.key s.block [ready, ready] ∧ ticksIn [ready, ready].dropLast < s.block.timer.toNat ∧
      ∃ t, Host.Core.run Sys2Proof.core 2 s = .next t ∧ t.block.timer = 0 ∧ ready.rst = false ∧
        ¬ t.block.repliesFor ready s.block.key :=
  ⟨rfl, rfl, unreset_replicate 2 ready rfl, quietFor_of_no_byte _ _ (by decide) _, by decide, _, rfl, by decide, rfl,
    not_repliesFor (by decide)⟩

/-- Two machines that differ in a stale entry of another key and in `wake`. -/
theorem witness_OnlyTheAwaitedEntryReachesThePorts : ∃ t t',
    let s := sampling (waiting .query 2 false []) ready
    let s' := sampling (waiting .query 2 true [(5, 1)]) ready
    s.script = s'.script ∧ s.edge = s'.edge ∧ s.block.alike s'.block ∧ s.block.listener = s'.block.listener ∧
      Host.Core.run Sys2Proof.core 1 s = .next t ∧ Host.Core.run Sys2Proof.core 1 s' = .next t' :=
  ⟨_, _, rfl, rfl, ⟨rfl, fun _ h => absurd h (by decide), fun _ _ => rfl, fun _ => by decide⟩, rfl,
    run_next 0 (step_of_script (I := ready) (rest := []) rfl rfl),
    run_next 0 (step_of_script (I := ready) (rest := []) rfl rfl)⟩

/-- QUERY, then SET_CONFIRM with the value asked for and with another, one tick left. -/
theorem witness_AwaitedReplyEndsTheWait :
    [(Op.query, (0x67 : Byte), (103 : Value)), (.setConfirm, 0x67, 103), (.setConfirm, 0x66, 102)].all (fun w =>
      let b := receiving (frameRep.dropLast.set 18 w.2.1) (waiting w.1 1 false [])
      b.fsm == .wait && tblRead b.table b.key == none && b.timer != 0 && !(Inputs.receiving 0xF7 true).rst &&
        !ready.rst && b.completed (Inputs.receiving 0xF7 true) == some (.replyParameter 0 7 w.2.2)) = true := by decide

theorem witness_FireAndForgetCommandsComplete :
    [((0b00 : BitVec 2), 9), (0b01, 19)].all (fun w =>
      holding.fsm == .idle && !(offer w.1).rst && (offer w.1).cmd_valid && (offer w.1).cmd_op == w.1 &&
        readiesIn (List.replicate w.2 ready) == w.2) = true ∧
      unreset (List.replicate 9 ready) ∧ unreset (List.replicate 19 ready) :=
  ⟨by decide, unreset_replicate _ _ rfl, unreset_replicate _ _ rfl⟩

theorem witness_WaitingCommandsReachWait :
    [((0b10 : BitVec 2), 15), (0b11, 34)].all (fun w =>
      holding.fsm == .idle && !(offer w.1).rst && (offer w.1).cmd_valid && (offer w.1).cmd_op == w.1 &&
        readiesIn (List.replicate w.2 ready) == w.2) = true ∧
      unreset (List.replicate 15 ready) ∧ unreset (List.replicate 34 ready) ∧
      quietFor (0, 7) holding (offer 0b10 :: List.replicate 15 ready) ∧
      quietFor (0, 7) holding (offer 0b11 :: List.replicate 34 ready) :=
  ⟨by decide, unreset_replicate _ _ rfl, unreset_replicate _ _ rfl,
    quietFor_of_no_byte _ _ (by decide) _, quietFor_of_no_byte _ _ (by decide) _⟩

/-- A stalled start, and a whole Change frame taken at once. -/
theorem witness_TransmissionIsTheFrameUnderAnyStall :
    let stalled := [Inputs.quiet, ready, Inputs.quiet]
    let whole := List.replicate 19 ready
    let s (Is : List Inputs) : State := { block := sending .chg .setConfirm 0, script := Is ++ [ready], edge := 0 }
    (∀ Is, (s Is).block.fsm = .send ∧ (s Is).block.idx = 0 ∧ (s Is).script = Is ++ [ready]) ∧
      unreset stalled ∧ readiesIn stalled ≤ frameLen (s stalled).block.frame ∧
      unreset whole ∧ readiesIn whole = frameLen (s whole).block.frame :=
  ⟨fun _ => ⟨rfl, rfl, rfl⟩, by unfold unreset; decide, by decide, unreset_replicate _ _ rfl, by decide⟩

/-- The first two bytes of the Change frame leave the machine around a stall (R135, R200). -/
theorem test_tx_stall :
    txTrace 3 { block := sending .chg .change 0, script := [ready, Inputs.quiet, ready], edge := 0 } =
      [(0xF0, false), (0x43, false)] := by decide

/-- A Reply of 20 bytes, and the same frame made 21 bytes long. -/
theorem witness_PresentedFrameIsDecodedWhole :
    [frameRep, frameRep ++ [0xF7]].all (fun f => f != []) = true ∧
      State.reset.block.rx_buf = [] ∧ State.reset.block.rx_len = 0 ∧
      unreset (receiveVectors frameRep) ∧ presents frameRep (receiveVectors frameRep) ∧
      unreset (receiveVectors (frameRep ++ [0xF7])) ∧ presents (frameRep ++ [0xF7]) (receiveVectors (frameRep ++ [0xF7])) ∧
      decode frameRep = .replyParameter 0 7 103 :=
  ⟨by decide, rfl, rfl, unreset_receiveVectors _, presents_receiveVectors _, unreset_receiveVectors _,
    presents_receiveVectors _, by decide⟩

end Sys2Proof.Tests
end

section
/-! The block state along an edge: R38's invariant and the timer's rule. Each edge without reset is one way of the
caller path followed by the listener path, and the listener path can only insert an entry and raise `wake`. -/

namespace Sys2Proof.Machine

/-! ### An edge as one way of the caller path, then the listener path -/

/-- An edge without reset: the caller path goes one of its ways, and the listener path acts on what that leaves. -/
theorem step_block_of_running {s t : State} (hr : s.input.rst = false) (h : step s = .next t) :
    ∃ b1, CallerCase s.block s.input b1 ∧ t.block = b1.listenerEdge s.input := by
  rw [step_of_running hr] at h
  injection h with h
  exact ⟨_, s.block.callerEdge_case s.input, h ▸ rfl⟩

theorem Block.listenerEdge_fsm (b : Block) (I : Inputs) : (b.listenerEdge I).fsm = b.fsm :=
  congrArg CallerRegs.fsm (b.listenerEdge_caller I)

theorem Block.listenerEdge_timer (b : Block) (I : Inputs) : (b.listenerEdge I).timer = b.timer :=
  congrArg CallerRegs.timer (b.listenerEdge_caller I)

/-- The awaited key is the caller path's alone. -/
theorem Block.key_congr {b b' : Block} (h : b.caller = b'.caller) : b.key = b'.key :=
  Prod.ext (congrArg CallerRegs.c h) (congrArg CallerRegs.a h)

/-- Whether a query is awaited is the caller path's alone. -/
theorem Block.awaiting_congr {b b' : Block} (h : b.caller = b'.caller) : b.awaiting ↔ b'.awaiting := by
  have hf : b.fsm = b'.fsm := congrArg CallerRegs.fsm h
  have hs : b.frame = b'.frame := congrArg CallerRegs.frame h
  rw [Block.awaiting, Block.awaiting, hf, hs]

/-! ### An awaited entry has raised `wake` (R38) -/

/-- Nothing to cover: no query is awaited. -/
theorem Block.wakeCovers_of_not_awaiting {b : Block} (h : ¬ b.awaiting) : b.wakeCovers :=
  fun ha => absurd ha h

/-- Nothing to cover: the key of the command has no entry. -/
theorem Block.wakeCovers_of_absent {b : Block} (h : tblRead b.table b.key = none) : b.wakeCovers := by
  intro _ hs
  rw [h] at hs
  cases hs

/-- The caller path keeps the invariant: a query starts with its key cleared (R137), and a WAIT lowers `wake` only
where the key has no entry (R139). -/
theorem CallerCase.wakeCovers {b b1 : Block} {I : Inputs} (h : CallerCase b I b1) (hb : b.wakeCovers) :
    b1.wakeCovers := by
  cases h with
  | rest => exact hb
  | stall => exact hb
  | held => exact hb
  | byte => exact hb
  | plain o sel _ _ _ hs =>
    refine Block.wakeCovers_of_not_awaiting ?_
    rcases hs with ⟨_, rfl⟩ | ⟨_, rfl⟩ | ⟨_, rfl⟩ <;> simp [Block.awaiting]
  | query => exact Block.wakeCovers_of_absent (tblRead_tblClear_same _ _)
  | confirm => exact Block.wakeCovers_of_absent (tblRead_tblClear_same _ _)
  | await hf _ _ hs => exact fun _ => hb (.inr ⟨hf, hs⟩)
  | waiting hf hx =>
    refine Block.wakeCovers_of_absent (Option.not_isSome_iff_eq_none.mp fun hs => ?_)
    have hw : b.wake = true := hb (.inl hf) hs
    exact absurd (hx hw) (Option.isSome_iff_ne_none.mp hs)
  | sent => exact Block.wakeCovers_of_not_awaiting (by simp [Block.awaiting])
  | found => exact Block.wakeCovers_of_not_awaiting (by simp [Block.awaiting])
  | expired => exact Block.wakeCovers_of_not_awaiting (by simp [Block.awaiting])
  | taken => exact Block.wakeCovers_of_not_awaiting (by simp [Block.awaiting])

/-- The listener path keeps the invariant: it raises `wake` with every insert (R147) and never lowers it. -/
theorem Block.listenerEdge_wakeCovers {b : Block} {I : Inputs} (hr : I.rst = false) (hb : b.wakeCovers) :
    (b.listenerEdge I).wakeCovers := by
  have hc := b.listenerEdge_caller I
  obtain ⟨htable, hwake⟩ := b.listenerEdge_shared hr
  intro ha hs
  rw [Block.awaiting_congr hc] at ha
  rw [Block.key_congr hc, htable] at hs
  rw [hwake]
  cases hi : b.insertAsked I with
  | some e => simp
  | none =>
    rw [hi] at hs
    simp [hb ha hs]

theorem Block.reset_wakeCovers : Block.reset.wakeCovers :=
  Block.wakeCovers_of_absent (tblRead_empty _)

/-- Settles O37: the caller path keeps R38's invariant, then the listener path does; a reset empties the table. -/
theorem awaitedEntryHasRaisedWake : Obligations.AwaitedEntryHasRaisedWake := by
  intro s t hs h
  cases hr : s.input.rst with
  | true =>
    rw [step_of_rst hr] at h
    injection h with h
    exact h ▸ Block.reset_wakeCovers
  | false =>
    obtain ⟨b1, hcase, ht⟩ := step_block_of_running hr h
    rw [ht]
    exact Block.listenerEdge_wakeCovers hr (hcase.wakeCovers hs)

/-! ### The timer (R26) -/

/-- What the caller path does to the timer: load it on entering WAIT (R136), take a tick from what is left of it while
waiting goes on (R140), or leave it. -/
theorem CallerCase.timer_cases {b b1 : Block} {I : Inputs} (h : CallerCase b I b1) :
    (b.fsm = .send ∧ b1.fsm = .wait ∧ b1.timer = b.t) ∨
    (b.fsm = .wait ∧ b1.fsm = .wait ∧ I.tick = true ∧ b.timer ≠ 0 ∧ b1.timer = b.timer - 1) ∨
    (b1.timer = b.timer ∧ (b1.fsm = .wait → b.fsm = .wait ∧ I.tick = false)) := by
  cases h with
  | await hf => exact .inl ⟨hf, rfl, rfl⟩
  | waiting hf _ ht =>
    cases hk : I.tick with
    | true => exact .inr (.inl ⟨hf, hf, rfl, ht, rfl⟩)
    | false => exact .inr (.inr ⟨rfl, fun _ => ⟨hf, rfl⟩⟩)
  | rest hf => simp [hf]
  | plain => simp
  | query => simp
  | stall hf => simp [hf]
  | byte hf => simp [hf]
  | sent => simp
  | confirm hf => simp [hf]
  | found => simp
  | expired => simp
  | held hf => simp [hf]
  | taken => simp

/-- Settles O34, by the three things the caller path does to the timer; the listener path leaves it. -/
theorem timerRule : Obligations.TimerRule := by
  intro s t hr h
  obtain ⟨b1, hcase, ht⟩ := step_block_of_running hr h
  rw [ht, Block.listenerEdge_fsm, Block.listenerEdge_timer]
  rcases hcase.timer_cases with ⟨hf, hf1, hload⟩ | ⟨hf, hf1, htick, hleft, hcount⟩ | ⟨hkeep, hstay⟩
  · simp [hf, hf1, hload]
  · have hdown : b1.timer.toNat + 1 = s.block.timer.toNat := by bv_omega
    simp [hf, hf1, htick, hdown]
  · refine ⟨fun ⟨hsend, hf1⟩ => ?_, fun ⟨_, hf1, htick⟩ => ?_, fun _ => hkeep, fun _ _ => hkeep⟩
    · obtain ⟨hwait, _⟩ := hstay hf1
      simp [hsend] at hwait
    · obtain ⟨_, hquiet⟩ := hstay hf1
      simp [htick] at hquiet

end Sys2Proof.Machine
end

section
/-! The decoder by shape: each shape fixes its length, no two lengths agree, so `decode` answers by the one shape a
frame has (R72 to R77); and a field is read from the low seven bits of its bytes alone (R71, R82). -/

namespace Sys2Proof

/-! ### The lengths of the shapes tell them apart (R72 to R75) -/

theorem isKeepalive_eq_false_of_length {f : Frame} (h : f.length ≠ Wire.keepaliveLen) : isKeepalive f = false := by
  rw [← Bool.not_eq_true, isKeepalive_iff]
  rintro rfl
  exact h rfl

theorem isChange_eq_false_of_length {f : Frame} (h : f.length ≠ Wire.changeLen) : isChange f = false := by
  rw [← Bool.not_eq_true, isChange_iff]
  exact fun hc => h hc.1

theorem isQuery_eq_false_of_length {f : Frame} (h : f.length ≠ Wire.queryLen) : isQuery f = false := by
  rw [← Bool.not_eq_true, isQuery_iff]
  exact fun hq => h hq.1

theorem isReply_eq_false_of_length {f : Frame} (h : f.length ≠ Wire.replyLen) : isReply f = false := by
  rw [← Bool.not_eq_true, isReply_iff]
  exact fun hr => h hr.1

/-- A Keepalive has no other shape. -/
theorem isKeepalive_excludes {f : Frame} (h : isKeepalive f = true) :
    isChange f = false ∧ isQuery f = false ∧ isReply f = false := by
  have hlen : f.length = Wire.keepaliveLen := by rw [(isKeepalive_iff f).mp h]; rfl
  exact ⟨isChange_eq_false_of_length (hlen ▸ by decide), isQuery_eq_false_of_length (hlen ▸ by decide),
    isReply_eq_false_of_length (hlen ▸ by decide)⟩

/-- A ChangeParameter has no other shape. -/
theorem isChange_excludes {f : Frame} (h : isChange f = true) :
    isKeepalive f = false ∧ isQuery f = false ∧ isReply f = false := by
  obtain ⟨hlen, _⟩ := (isChange_iff f).mp h
  exact ⟨isKeepalive_eq_false_of_length (hlen ▸ by decide), isQuery_eq_false_of_length (hlen ▸ by decide),
    isReply_eq_false_of_length (hlen ▸ by decide)⟩

/-- A QueryParameter has no other shape. -/
theorem isQuery_excludes {f : Frame} (h : isQuery f = true) :
    isKeepalive f = false ∧ isChange f = false ∧ isReply f = false := by
  obtain ⟨hlen, _⟩ := (isQuery_iff f).mp h
  exact ⟨isKeepalive_eq_false_of_length (hlen ▸ by decide), isChange_eq_false_of_length (hlen ▸ by decide),
    isReply_eq_false_of_length (hlen ▸ by decide)⟩

/-- A ReplyParameter has no other shape. -/
theorem isReply_excludes {f : Frame} (h : isReply f = true) :
    isKeepalive f = false ∧ isChange f = false ∧ isQuery f = false := by
  obtain ⟨hlen, _⟩ := (isReply_iff f).mp h
  exact ⟨isKeepalive_eq_false_of_length (hlen ▸ by decide), isChange_eq_false_of_length (hlen ▸ by decide),
    isQuery_eq_false_of_length (hlen ▸ by decide)⟩

/-- No frame has two shapes (R77). -/
theorem countP_shapes_le_one (f : Frame) : [isKeepalive f, isChange f, isQuery f, isReply f].countP id ≤ 1 := by
  cases hk : isKeepalive f with
  | true => simp [isKeepalive_excludes hk]
  | false =>
    cases hc : isChange f with
    | true => simp [isChange_excludes hc]
    | false =>
      cases hq : isQuery f with
      | true => simp [isQuery_excludes hq]
      | false => cases isReply f <;> decide

/-! ### What `decode` answers for each shape (R107 to R112) -/

theorem decode_of_isKeepalive {f : Frame} (h : isKeepalive f = true) : decode f = .keepalive := by
  simp [decode, h]

theorem decode_of_isChange {f : Frame} (h : isChange f = true) :
    decode f = .changeParameter (group7 (byteAt f Wire.changeChannel))
      (joinAddr (byteAt f Wire.changeHigh) (byteAt f Wire.changeLow))
      (unpackValue (groupsAt f Wire.changeGroups)) := by
  simp [decode, h, isChange_excludes h]

theorem decode_of_isQuery {f : Frame} (h : isQuery f = true) :
    decode f = .queryParameter (group7 (byteAt f Wire.queryChannel))
      (joinAddr (byteAt f Wire.queryHigh) (byteAt f Wire.queryLow)) := by
  simp [decode, h, isQuery_excludes h]

theorem decode_of_isReply {f : Frame} (h : isReply f = true) :
    decode f = .replyParameter (group7 (byteAt f Wire.replyChannel))
      (joinAddr (byteAt f Wire.replyHigh) (byteAt f Wire.replyLow))
      (unpackValue (groupsAt f Wire.replyGroups)) := by
  simp [decode, h, isReply_excludes h]

/-- The four shapes as R72 to R75 write them. -/
theorem isRecognised_iff (f : Frame) :
    isRecognised f = true ↔ f = Wire.keepaliveFrame ∨
      (f.length = Wire.changeLen ∧ f.take 8 = Wire.changeHead) ∨
      (f.length = Wire.queryLen ∧ f.take 9 = Wire.queryHead) ∨
      (f.length = Wire.replyLen ∧ f.take 9 = Wire.replyHead) := by
  simp only [isRecognised, Bool.or_eq_true, isKeepalive_iff, isChange_iff, isQuery_iff, isReply_iff, or_assoc]

/-- A frame is Unknown exactly when it has none of the shapes (R76). -/
theorem decode_eq_unknown_iff (f : Frame) : decode f = .unknown f ↔ ¬ isRecognised f = true := by
  cases hk : isKeepalive f with
  | true => simp [isRecognised, decode_of_isKeepalive hk, hk]
  | false =>
    cases hc : isChange f with
    | true => simp [isRecognised, decode_of_isChange hc, hc]
    | false =>
      cases hq : isQuery f with
      | true => simp [isRecognised, decode_of_isQuery hq, hq]
      | false =>
        cases hr : isReply f with
        | true => simp [isRecognised, decode_of_isReply hr, hr]
        | false => simp [isRecognised, decode, hk, hc, hq, hr]

/-- A Reply without its last byte is Unknown: it has the length of a Change, but not its fixed bytes (R77). -/
theorem decode_dropLast_of_isReply {f : Frame} (h : isReply f = true) : decode f.dropLast = .unknown f.dropLast := by
  obtain ⟨hlen, hhead⟩ := (isReply_iff f).mp h
  have hcut : f.dropLast.length = Wire.changeLen := by rw [List.length_dropLast, hlen]; rfl
  have htake : f.dropLast.take 8 = Wire.replyHead.take 8 := by
    rw [List.dropLast_eq_take, hlen, ← hhead, List.take_take, List.take_take]
    rfl
  rw [decode_eq_unknown_iff, isRecognised_iff]
  rintro (hk | ⟨_, hc⟩ | ⟨hq, _⟩ | ⟨hr, _⟩)
  · exact absurd (hcut.symm.trans (congrArg List.length hk)) (by decide)
  · exact absurd (htake.symm.trans hc) (by decide)
  · exact absurd (hcut.symm.trans hq) (by decide)
  · exact absurd (hcut.symm.trans hr) (by decide)

/-- A Reply with one more byte is Unknown: no shape has that length (R77). -/
theorem decode_append_of_isReply {f : Frame} (h : isReply f = true) (b : Byte) :
    decode (f ++ [b]) = .unknown (f ++ [b]) := by
  obtain ⟨hlen, _⟩ := (isReply_iff f).mp h
  have hext : (f ++ [b]).length = Wire.replyLen + 1 := by rw [List.length_append, hlen]; rfl
  rw [decode_eq_unknown_iff, isRecognised_iff]
  rintro (hk | ⟨hc, _⟩ | ⟨hq, _⟩ | ⟨hr, _⟩)
  · exact absurd (hext.symm.trans (congrArg List.length hk)) (by decide)
  · exact absurd (hext.symm.trans hc) (by decide)
  · exact absurd (hext.symm.trans hq) (by decide)
  · exact absurd (hext.symm.trans hr) (by decide)

/-- Settles O3: a shape says its length, and a Reply cut to the length of a Change keeps the Reply's fixed bytes. -/
theorem shapesAreExactAndDisjoint : Obligations.ShapesAreExactAndDisjoint :=
  ⟨fun f => (decode_eq_unknown_iff f).trans (not_congr (isRecognised_iff f)), countP_shapes_le_one, rfl,
    fun _ b h => ⟨⟨_, _, _, decode_of_isReply h⟩, decode_dropLast_of_isReply h, decode_append_of_isReply h b⟩⟩

/-! ### The decoded fields read seven bits of their bytes (R71, R82) -/

/-- The two frames agree on the seven field bits of the bytes at these offsets. -/
def SameFieldBits (offsets : List Nat) (f g : Frame) : Prop :=
  ∀ j ∈ offsets, group7 (byteAt f j) = group7 (byteAt g j)

theorem sameFieldBits_cons {j : Nat} {js : List Nat} {f g : Frame} :
    SameFieldBits (j :: js) f g ↔ group7 (byteAt f j) = group7 (byteAt g j) ∧ SameFieldBits js f g :=
  List.forall_mem_cons

/-- The offsets of the five value groups, G4 at `i` (R88). -/
def groupOffsets (i : Nat) : List Nat := [i, i + 1, i + 2, i + 3, i + 4]

/-- The offsets of the field bytes of a ChangeParameter (R73, R88). -/
def changeFields : List Nat :=
  Wire.changeHigh :: Wire.changeLow :: Wire.changeChannel :: groupOffsets Wire.changeGroups

/-- The offsets of the field bytes of a QueryParameter (R74, R88). -/
def queryFields : List Nat := [Wire.queryHigh, Wire.queryLow, Wire.queryChannel]

/-- The offsets of the field bytes of a ReplyParameter (R75, R88). -/
def replyFields : List Nat :=
  Wire.replyHigh :: Wire.replyLow :: Wire.replyChannel :: groupOffsets Wire.replyGroups

theorem joinAddr_congr {high high' low low' : Byte} (hh : group7 high = group7 high')
    (hl : group7 low = group7 low') : joinAddr high low = joinAddr high' low' := by
  rw [joinAddr, joinAddr, hh, hl]

theorem unpackValue_groupsAt_congr {f g : Frame} {i : Nat} (h : SameFieldBits (groupOffsets i) f g) :
    unpackValue (groupsAt f i) = unpackValue (groupsAt g i) := by
  simp only [groupOffsets, sameFieldBits_cons] at h
  obtain ⟨h4, h3, h2, h1, h0, _⟩ := h
  simp only [unpackValue, accumulate35, groupsAt, h4, h3, h2, h1, h0]

theorem decode_change_congr {f g : Frame} (hf : isChange f = true) (hg : isChange g = true)
    (h : SameFieldBits changeFields f g) : decode f = decode g := by
  simp only [changeFields, sameFieldBits_cons] at h
  obtain ⟨hhigh, hlow, hchannel, hgroups⟩ := h
  rw [decode_of_isChange hf, decode_of_isChange hg, hchannel, joinAddr_congr hhigh hlow,
    unpackValue_groupsAt_congr hgroups]

theorem decode_query_congr {f g : Frame} (hf : isQuery f = true) (hg : isQuery g = true)
    (h : SameFieldBits queryFields f g) : decode f = decode g := by
  simp only [queryFields, sameFieldBits_cons] at h
  obtain ⟨hhigh, hlow, hchannel, _⟩ := h
  rw [decode_of_isQuery hf, decode_of_isQuery hg, hchannel, joinAddr_congr hhigh hlow]

theorem decode_reply_congr {f g : Frame} (hf : isReply f = true) (hg : isReply g = true)
    (h : SameFieldBits replyFields f g) : decode f = decode g := by
  simp only [replyFields, sameFieldBits_cons] at h
  obtain ⟨hhigh, hlow, hchannel, hgroups⟩ := h
  rw [decode_of_isReply hf, decode_of_isReply hg, hchannel, joinAddr_congr hhigh hlow,
    unpackValue_groupsAt_congr hgroups]

/-! ### Replacing a byte behind the fixed bytes -/

theorem byteAt_set_other (f : Frame) {i j : Nat} (b : Byte) (h : i ≠ j) : byteAt (f.set i b) j = byteAt f j := by
  simp [byteAt, List.getD_eq_getElem?_getD, List.getElem?_set_ne h]

theorem byteAt_set_same {f : Frame} {i : Nat} (b : Byte) (h : i < f.length) : byteAt (f.set i b) i = b := by
  simp [byteAt, List.getD_eq_getElem?_getD, List.getElem?_set_self h]

/-- Bit 7 is outside the group (R71). -/
theorem group7_xor_bit7 (b : Byte) : group7 (b ^^^ 0x80) = group7 b := by
  rw [group7, BitVec.setWidth_xor]
  exact BitVec.xor_zero

/-- A byte outside the fields touches no field. -/
theorem sameFieldBits_set_unnamed {offsets : List Nat} (f : Frame) {i : Nat} (b : Byte) (h : i ∉ offsets) :
    SameFieldBits offsets (f.set i b) f := by
  intro j hj
  have hij : i ≠ j := by
    rintro rfl
    exact h hj
  rw [byteAt_set_other f b hij]

/-- Bit 7 of any byte touches no field (R82); behind the end of the frame there is no byte to flip. -/
theorem sameFieldBits_set_bit7 (offsets : List Nat) (f : Frame) (i : Nat) :
    SameFieldBits offsets (f.set i (byteAt f i ^^^ 0x80)) f := by
  intro j _
  by_cases hij : i = j
  · subst hij
    by_cases hi : i < f.length
    · rw [byteAt_set_same _ hi, group7_xor_bit7]
    · rw [List.set_eq_of_length_le (Nat.le_of_not_lt hi)]
  · rw [byteAt_set_other f _ hij]

theorem isChange_set (f : Frame) {i : Nat} (b : Byte) (h : 8 ≤ i) : isChange (f.set i b) = isChange f := by
  rw [Bool.eq_iff_iff, isChange_iff, isChange_iff, List.length_set, List.take_set_of_le h]

theorem isQuery_set (f : Frame) {i : Nat} (b : Byte) (h : 9 ≤ i) : isQuery (f.set i b) = isQuery f := by
  rw [Bool.eq_iff_iff, isQuery_iff, isQuery_iff, List.length_set, List.take_set_of_le h]

theorem isReply_set (f : Frame) {i : Nat} (b : Byte) (h : 9 ≤ i) : isReply (f.set i b) = isReply f := by
  rw [Bool.eq_iff_iff, isReply_iff, isReply_iff, List.length_set, List.take_set_of_le h]

theorem decode_set_of_isChange {f : Frame} (h : isChange f = true) {i : Nat} {b : Byte} (hi : 8 ≤ i)
    (hs : SameFieldBits changeFields (f.set i b) f) : decode (f.set i b) = decode f :=
  decode_change_congr ((isChange_set f b hi).trans h) h hs

theorem decode_set_of_isQuery {f : Frame} (h : isQuery f = true) {i : Nat} {b : Byte} (hi : 9 ≤ i)
    (hs : SameFieldBits queryFields (f.set i b) f) : decode (f.set i b) = decode f :=
  decode_query_congr ((isQuery_set f b hi).trans h) h hs

theorem decode_set_of_isReply {f : Frame} (h : isReply f = true) {i : Nat} {b : Byte} (hi : 9 ≤ i)
    (hs : SameFieldBits replyFields (f.set i b) f) : decode (f.set i b) = decode f :=
  decode_reply_congr ((isReply_set f b hi).trans h) h hs

/-- The bytes the source does not name stand behind the fixed bytes and outside the fields (R88). -/
theorem unnamed_offsets_outside_fields :
    (∀ i ∈ [10, 11, 18], 8 ≤ i ∧ i ∉ changeFields) ∧ (∀ i ∈ [11, 12, 14], 9 ≤ i ∧ i ∉ queryFields) ∧
      (∀ i ∈ [11, 12, 19], 9 ≤ i ∧ i ∉ replyFields) := by decide

/-- Every field byte stands behind the fixed bytes (R88). -/
theorem field_offsets_behind_head :
    (∀ i ∈ changeFields, 8 ≤ i) ∧ (∀ i ∈ queryFields, 9 ≤ i) ∧ (∀ i ∈ replyFields, 9 ≤ i) := by decide

/-- Settles O7: neither replacement touches the fixed bytes or the seven bits a field is read from. -/
theorem decodeIgnoresBitSevenAndUnnamedBytes : Obligations.DecodeIgnoresBitSevenAndUnnamedBytes := by
  obtain ⟨hchange, hquery, hreply⟩ := unnamed_offsets_outside_fields
  obtain ⟨hchangeField, hqueryField, hreplyField⟩ := field_offsets_behind_head
  intro f b
  refine ⟨fun h => ⟨fun i hi => ?_, fun i hi => ?_⟩, fun h => ⟨fun i hi => ?_, fun i hi => ?_⟩,
    fun h => ⟨fun i hi => ?_, fun i hi => ?_⟩⟩
  · obtain ⟨hhead, hout⟩ := hchange i hi
    exact decode_set_of_isChange h hhead (sameFieldBits_set_unnamed f b hout)
  · exact decode_set_of_isChange h (hchangeField i hi) (sameFieldBits_set_bit7 _ f i)
  · obtain ⟨hhead, hout⟩ := hquery i hi
    exact decode_set_of_isQuery h hhead (sameFieldBits_set_unnamed f b hout)
  · exact decode_set_of_isQuery h (hqueryField i hi) (sameFieldBits_set_bit7 _ f i)
  · obtain ⟨hhead, hout⟩ := hreply i hi
    exact decode_set_of_isReply h hhead (sameFieldBits_set_unnamed f b hout)
  · exact decode_set_of_isReply h (hreplyField i hi) (sameFieldBits_set_bit7 _ f i)

end Sys2Proof
end

section
/-! The field functions as arithmetic (R100, R101, R103), and the encoders inverted by the decoder (R113): the bytes an
encoder lays have the shape, and each field function is inverted at the bytes it wrote. -/

namespace Sys2Proof

/-! ### The field functions as arithmetic -/

/-- The seven bits of a field byte as a number (R71). -/
@[simp] theorem group7_toNat (b : Byte) : (group7 b).toNat = b.toNat % 128 := BitVec.toNat_setWidth 7 b

/-- `joinAddr` loses nothing: two seven-bit groups fill the 14 bits (R103). -/
theorem joinAddr_toNat (high low : Byte) :
    (joinAddr high low).toNat = high.toNat % 128 * 128 + low.toNat % 128 := by
  simp only [joinAddr, BitVec.toNat_ofNat, group7_toNat]
  omega

/-- Group `i` of a pattern as a number (R79). -/
theorem slice7_toNat (s : BitVec 35) (i : Nat) : (slice7 s i).toNat = s.toNat / 128 ^ i % 128 := by
  have hpow : 2 ^ (7 * i) = 128 ^ i := pow_mul 2 7 i
  simp only [slice7, zext8, BitVec.toNat_setWidth, BitVec.extractLsb'_toNat, Nat.shiftRight_eq_div_pow, hpow]
  omega

/-- The 35-bit sign extension is the signed value modulo 2^35 (R100). -/
theorem signExtend35_toNat (v : Value) : ((v.signExtend 35).toNat : Int) = v.toInt % 2 ^ 35 := by
  have hsame : (v.signExtend 35).toInt = v.toInt := BitVec.toInt_signExtend_of_le (by decide)
  have hlt := (v.signExtend 35).isLt
  rw [BitVec.toInt_eq_toNat_cond] at hsame
  split at hsame <;> omega

/-- A group of a signed value is its arithmetic shift, masked: the extension holds all five groups (R100). -/
theorem slice7_signExtend35 (v : Value) {i : Nat} (hi : i < 5) :
    ((slice7 (v.signExtend 35) i).toNat : Int) = v.toInt / 128 ^ i % 128 := by
  have hext := signExtend35_toNat v
  rw [slice7_toNat]
  push_cast
  rw [hext]
  interval_cases i <;> omega

/-- Settles O4: each group is a group of the sign extension, and those are the arithmetic shifts. -/
theorem packValueIsArithmeticShift : Obligations.PackValueIsArithmeticShift := by
  refine ⟨fun v => ?_, by decide, by decide, by decide, by decide, by decide⟩
  have h1 : ((packValue v).g1.toNat : Int) = v.toInt / 128 ^ 1 % 128 := slice7_signExtend35 v (by decide)
  have h0 : ((packValue v).g0.toNat : Int) = v.toInt / 128 ^ 0 % 128 := slice7_signExtend35 v (by decide)
  rw [pow_one] at h1
  rw [pow_zero, Int.ediv_one] at h0
  exact ⟨slice7_signExtend35 v (by decide), slice7_signExtend35 v (by decide), slice7_signExtend35 v (by decide),
    h1, h0⟩

/-- A 32-bit word read as a signed value: its number, less 2^32 from 2^31 on (R101). -/
theorem value_toInt (x : Value) :
    x.toInt = if (x.toNat : Int) ≥ 2 ^ 31 then (x.toNat : Int) - 2 ^ 32 else (x.toNat : Int) := by
  rw [BitVec.toInt_eq_toNat_cond]
  split <;> split <;> omega

/-- `unpackValue` keeps the low 32 bits of the accumulator (R101). -/
theorem unpackValue_toNat (g : Groups) : (unpackValue g).toNat =
    (g.g4.toNat % 128 * 128 ^ 4 + g.g3.toNat % 128 * 128 ^ 3 + g.g2.toNat % 128 * 128 ^ 2 + g.g1.toNat % 128 * 128 +
      g.g0.toNat % 128) % 2 ^ 32 := by
  simp only [unpackValue, accumulate35, BitVec.toNat_ofNat, group7_toNat]

/-- Settles O5: the low 32 bits of the accumulator, then the signed reading of a word. -/
theorem unpackValueTruncates : Obligations.UnpackValueTruncates := by
  intro g
  rw [value_toInt, unpackValue_toNat]

/-- Settles O6: `decode` answers each shape by the field functions at the offsets of R88. -/
theorem fieldsStandAtTheirOffsets : Obligations.FieldsStandAtTheirOffsets := fun _ =>
  ⟨fun h => ⟨_, _, _, decode_of_isChange h, group7_toNat _, joinAddr_toNat _ _, rfl⟩,
    fun h => ⟨_, _, decode_of_isQuery h, group7_toNat _, joinAddr_toNat _ _⟩,
    fun h => ⟨_, _, _, decode_of_isReply h, group7_toNat _, joinAddr_toNat _ _, rfl⟩⟩

/-! ### Encoding, then decoding (R113) -/

theorem isKeepalive_encodeKeepalive : isKeepalive encodeKeepalive = true :=
  (isKeepalive_iff _).mpr rfl

theorem isChange_encodeChangeParameter (fl : Config.Fills) (p : Addr) (v : Value) (c : Channel) :
    isChange (encodeChangeParameter fl p v c) = true := by
  rw [encodeChangeParameter_bytes, isChange_iff]
  exact ⟨rfl, rfl⟩

theorem isQuery_encodeQueryParameter (fl : Config.Fills) (p : Addr) (c : Channel) :
    isQuery (encodeQueryParameter fl p c) = true := by
  rw [encodeQueryParameter_bytes, isQuery_iff]
  exact ⟨rfl, rfl⟩

theorem isReply_buildReplyFrame (c : Channel) (p : Addr) (v : Value) : isReply (buildReplyFrame c p v) = true := by
  rw [buildReplyFrame_bytes, isReply_iff]
  exact ⟨rfl, rfl⟩

theorem decode_encodeKeepalive : decode encodeKeepalive = .keepalive :=
  decode_of_isKeepalive isKeepalive_encodeKeepalive

theorem decode_encodeChangeParameter (fl : Config.Fills) (p : Addr) (v : Value) (c : Channel) :
    decode (encodeChangeParameter fl p v c) = .changeParameter c p v := by
  rw [decode_of_isChange (isChange_encodeChangeParameter fl p v c), encodeChangeParameter_bytes]
  change Msg.changeParameter (group7 (zext8 c)) (joinAddr (splitHigh p) (splitLow p)) (unpackValue (packValue v)) = _
  rw [group7_zext8, joinAddr_split, unpackValue_packValue]

theorem decode_encodeQueryParameter (fl : Config.Fills) (p : Addr) (c : Channel) :
    decode (encodeQueryParameter fl p c) = .queryParameter c p := by
  rw [decode_of_isQuery (isQuery_encodeQueryParameter fl p c), encodeQueryParameter_bytes]
  change Msg.queryParameter (group7 (zext8 c)) (joinAddr (splitHigh p) (splitLow p)) = _
  rw [group7_zext8, joinAddr_split]

theorem decode_buildReplyFrame (c : Channel) (p : Addr) (v : Value) :
    decode (buildReplyFrame c p v) = .replyParameter c p v := by
  rw [decode_of_isReply (isReply_buildReplyFrame c p v), buildReplyFrame_bytes]
  change Msg.replyParameter (group7 (zext8 c)) (joinAddr (splitHigh p) (splitLow p)) (unpackValue (packValue v)) = _
  rw [group7_zext8, joinAddr_split, unpackValue_packValue]

/-- A frame that decodes to a message is the instruction of that message. -/
theorem decodePacket_frame {f : Frame} {m : Msg} (h : decode f = m) : decodePacket (.frame f) = m.toInstr :=
  congrArg Msg.toInstr h

/-- Every well-formed instruction is read back from its packet, whatever the fill bytes (R83, R113). -/
theorem decodePacket_encode (fl : Config.Fills) (i : Instr) (hi : i.wellFormed = true) :
    decodePacket (encode fl i) = i := by
  cases i with
  | keepalive => exact decodePacket_frame decode_encodeKeepalive
  | changeParameter c p v => exact decodePacket_frame (decode_encodeChangeParameter fl p v c)
  | queryParameter c p => exact decodePacket_frame (decode_encodeQueryParameter fl p c)
  | replyParameter c p v => exact decodePacket_frame (decode_buildReplyFrame c p v)
  | unknown raw =>
    have hraw : ¬ isRecognised raw = true := by simpa [Instr.wellFormed] using hi
    exact decodePacket_frame ((decode_eq_unknown_iff raw).mpr hraw)
  | cmdKeepalive a c v t => rfl
  | cmdChange a c v t => rfl
  | cmdQuery a c v t => rfl
  | cmdSetConfirm a c v t => rfl

/-- Settles O2: each encoder's bytes have their shape, and the field functions are inverted at their offsets. -/
theorem encodedInstructionsDecodeBack : Obligations.EncodedInstructionsDecodeBack := fun fl =>
  ⟨decodePacket_encode fl, fun p v c => ⟨decode_encodeChangeParameter fl p v c, decode_encodeQueryParameter fl p c,
    decode_encodeKeepalive, decode_buildReplyFrame c p v⟩⟩

end Sys2Proof
end

section
/-! The machine's step is the step function of R150. The two are built differently: the machine runs each path on the
whole block, the reference collects requests and commits them to the sampled table and `wake` at the end. The bridge is
to commit the caller path's requests early: that gives the block the machine's caller path leaves, and the listener
path's requests may then be committed on top of it. -/

namespace Sys2Proof.Machine

/-! ### The requests of the caller path -/

/-- The query-start actions and the pop, as requests: clear this key and `wake` (R137, R142). -/
def Requests.discard (k : Key) : Requests := { Requests.zero with clr := some k, wclr := true }

/-- No request: the shared elements stay as the edge has found them. -/
theorem refCommit_zero {S N : Block} (htable : N.table = S.table) (hwake : N.wake = S.wake) :
    refCommit S N Requests.zero = N := by
  simp [refCommit, Requests.zero, ← htable, ← hwake]

/-- Committing a discard is the machine's own `Block.discard`. -/
theorem refCommit_discard {S N : Block} (k : Key) (htable : N.table = S.table) :
    refCommit S N (Requests.discard k) = N.discard k := by
  simp [refCommit, Requests.discard, Requests.zero, Block.discard, wakeAfter, htable]

/-- The status of a found entry as R150 writes it: QUERY apart, one comparison for every other operation. -/
theorem foundStatus_eq (op : Op) (x v : Value) :
    foundStatus op x v = if op = .query then .value else if x = v then .confirmed else .mismatch := by
  cases op <;> rfl

/-- Each way an edge of the caller path can go, as the reference has it: the block and the requests, which ask for no
insert, leave the listener path's elements alone and, committed, give the block of that way. -/
theorem CallerCase.refCaller_eq {b b1 : Block} {I : Inputs} (h : CallerCase b I b1) :
    ∃ N R, refCaller b I = (N, R) ∧ R.ins = none ∧ N.listener = b.listener ∧
      refCommit b N R = b1 := by
  cases h with
  | rest hf hv => exact ⟨b, .zero, by simp [refCaller, hf, hv], rfl, rfl, refCommit_zero rfl rfl⟩
  | plain o sel hf hv ho hs =>
    refine ⟨b.accept o sel I.cmd_addr I.cmd_channel I.cmd_value I.cmd_timeout, .zero, ?_, rfl, rfl,
      refCommit_zero rfl rfl⟩
    rcases hs with ⟨rfl, rfl⟩ | ⟨rfl, rfl⟩ | ⟨rfl, rfl⟩ <;> simp [refCaller, Block.accept, hf, hv, ho]
  | query hf hv ho =>
    exact ⟨b.accept .query .qry I.cmd_addr I.cmd_channel I.cmd_value I.cmd_timeout, .discard _,
      by simp [refCaller, Block.accept, Requests.discard, hf, hv, ho], rfl, rfl, refCommit_discard _ rfl⟩
  | stall hf hv => exact ⟨b, .zero, by simp [refCaller, hf, hv], rfl, rfl, refCommit_zero rfl rfl⟩
  | byte hf hv hi =>
    exact ⟨b.nextByte, .zero, by simp [refCaller, Block.nextByte, hf, hv, hi], rfl, rfl, refCommit_zero rfl rfl⟩
  | sent hf hv hi hs =>
    refine ⟨b.complete .sent 0, .zero, ?_, rfl, rfl, refCommit_zero rfl rfl⟩
    rcases hs with hs | ⟨hs, ho⟩
    · simp [refCaller, Block.complete, hf, hv, hi, hs]
    · simp [refCaller, Block.complete, hf, hv, hi, hs, ho]
  | confirm hf hv hi hs ho =>
    exact ⟨b.startQuery, .discard _, by simp [refCaller, Block.startQuery, Requests.discard, hf, hv, hi, hs, ho],
      rfl, rfl, refCommit_discard _ rfl⟩
  | await hf hv hi hs =>
    exact ⟨b.enterWait, .zero, by simp [refCaller, Block.enterWait, hf, hv, hi, hs], rfl, rfl,
      refCommit_zero rfl rfl⟩
  | found x hf hw hx =>
    exact ⟨b.complete (foundStatus b.op x b.v) x, .discard (b.c, b.a),
      by simp [refCaller, Block.complete, Requests.discard, foundStatus_eq, hf, hw, hx], rfl, rfl,
      refCommit_discard _ rfl⟩
  | expired hf hx ht =>
    refine ⟨b.complete .timeout 0, .zero, ?_, rfl, rfl, refCommit_zero rfl rfl⟩
    cases hw : b.wake with
    | false => simp [refCaller, Block.complete, hf, hw, ht]
    | true => simp [refCaller, Block.complete, hf, hw, hx hw, ht]
  | waiting hf hx ht =>
    refine ⟨{ b with timer := if I.tick then b.timer - 1 else b.timer }, { Requests.zero with wclr := b.wake },
      ?_, rfl, rfl, by simp [refCommit, Requests.zero]⟩
    rw [refCaller, hf]
    cases hw : b.wake with
    | false => exact if_neg ht
    | true =>
      rw [hx hw]
      exact if_neg ht
  | held hf hv => exact ⟨b, .zero, by simp [refCaller, hf, hv], rfl, rfl, refCommit_zero rfl rfl⟩
  | taken hf hv =>
    exact ⟨b.release, .zero, by simp [refCaller, Block.release, hf, hv], rfl, rfl, refCommit_zero rfl rfl⟩

/-! ### The listener path over them -/

/-- Over requests without an insert, the reference's listener path commits what the machine's listener path does to
the block that those requests alone leave. -/
theorem refCommit_refListener {S N : Block} {I : Inputs} {R : Requests} (hN : N.listener = S.listener)
    (hins : R.ins = none) :
    refCommit S (refListener S I N R).1 (refListener S I N R).2 = (refCommit S N R).listenerEdge I := by
  have hbuf : N.rx_buf = S.rx_buf := congrArg ListenerRegs.rx_buf hN
  have hlen : N.rx_len = S.rx_len := congrArg ListenerRegs.rx_len hN
  rcases (refCommit S N R).listenerEdge_cases I with ⟨hv, he⟩ | ⟨hv, hl, he⟩ | ⟨hv, hl, he⟩
  · rw [he]
    simp [refListener, hv, refCommit, Block.noFrame]
  · rw [he]
    simp [refListener, hv, hl, refCommit, Block.noFrame, Block.keepByte, Block.rxBytes, Block.rxCount, hbuf, hlen,
      Config.rxCap, Config.rxLenSat]
  · rw [he]
    have hm : (refCommit S N R).rxMessage I.rx_data = S.rxMessage I.rx_data := by
      simp [refCommit, Block.rxMessage, Block.rxBytes, Block.rxCount, hbuf, hlen]
    have hm' : decodeCapped (if S.rx_len.toNat < 20 then S.rx_buf ++ [I.rx_data] else S.rx_buf)
      (min (S.rx_len.toNat + 1) 21) = S.rxMessage I.rx_data := rfl
    rw [hm]
    simp only [refListener, hv, hl, if_true, hm']
    cases S.rxMessage I.rx_data with
    | replyParameter ch p x =>
      simp [refCommit, Block.receive, Block.observe, Block.insertReply, wakeAfter, hins, kindOf, fieldsOrZero]
    | keepalive => rfl
    | changeParameter ch p x => rfl
    | queryParameter ch p => rfl
    | unknown raw => rfl

/-- The reference's edge without reset: the caller path's edge, then the listener path's. -/
theorem refStep_of_running {S : Block} {I : Inputs} (hr : I.rst = false) :
    refStep S I = (S.callerEdge I).listenerEdge I := by
  obtain ⟨N, R, hcaller, hins, hN, hcommit⟩ := (S.callerEdge_case I).refCaller_eq
  simp [refStep, hr, hcaller, refCommit_refListener hN hins, hcommit]

/-- Settles O16: a reset is the same in both, and any other edge is the two paths in turn. -/
theorem stepRefinesTheSpecFunction : Obligations.StepRefinesTheSpecFunction := by
  intro s
  cases hr : s.input.rst with
  | true =>
    rw [step_of_rst hr]
    simp [refStep, hr, State.advance, State.withBlock]
  | false =>
    rw [step_of_running hr, refStep_of_running hr]
    rfl

end Sys2Proof.Machine
end

section
/-! The caller path's edges of a command in progress, with all that one of them commits. Each statement is one equation
for `Block.callerEdge`; what the listener path adds at the same edge is in `Block.commits` alone (R56). -/

namespace Sys2Proof.Machine

/-! ### From the caller path's edge to the step -/

/-- An edge without reset, given the block that the caller path leaves and its clears: the caller path's elements are
that block's, and the edge commits those clears with the listener path's insert. -/
theorem exists_step_of_callerEdge {s : State} {b1 : Block} {clr : Option Key} {wclr : Bool}
    (hr : s.input.rst = false) (hb : s.block.callerEdge s.input = b1)
    (ht : ∀ k, tblRead b1.table k = if clr = some k then none else tblRead s.block.table k)
    (hw : b1.wake = (s.block.wake && !wclr)) :
    ∃ t, step s = .next t ∧ t.block.caller = b1.caller ∧ s.block.commits t.block s.input clr wclr := by
  have hlistener : b1.listener = s.block.listener := hb ▸ s.block.callerEdge_listener s.input
  refine ⟨_, step_of_running hr, ?_⟩
  rw [State.advance_block, State.withBlock_block, hb]
  exact ⟨b1.listenerEdge_caller s.input, Block.commits_of_caller hr hlistener ht hw⟩

/-- The caller path clears nothing. -/
theorem exists_step_of_kept {s : State} {b1 : Block} (hr : s.input.rst = false)
    (hb : s.block.callerEdge s.input = b1) (ht : b1.table = s.block.table) (hw : b1.wake = s.block.wake) :
    ∃ t, step s = .next t ∧ t.block.caller = b1.caller ∧ s.block.commits t.block s.input none false :=
  exists_step_of_callerEdge hr hb (by simp [ht]) (by simp [hw])

/-- The caller path clears a key and `wake`: the query-start actions and the pop (R137, R142). -/
theorem exists_step_of_discarded {s : State} {b1 : Block} {k : Key} (hr : s.input.rst = false)
    (hb : s.block.callerEdge s.input = b1) (ht : b1.table = tblClear s.block.table k) (hw : b1.wake = false) :
    ∃ t, step s = .next t ∧ t.block.caller = b1.caller ∧ s.block.commits t.block s.input (some k) true :=
  exists_step_of_callerEdge hr hb (fun k' => by rw [ht, tblRead_tblClear_if]) (by simp [hw])

/-! ### The updates of a command in progress, on the caller path's elements -/

@[simp] theorem Block.nextByte_caller (b : Block) : b.nextByte.caller = { b.caller with idx := b.idx + 1 } := rfl
@[simp] theorem Block.complete_caller (b : Block) (st : Status) (x : Value) :
    (b.complete st x).caller = { b.caller with fsm := .resp, status := st, rvalue := x } := rfl
@[simp] theorem Block.discard_caller (b : Block) (k : Key) : (b.discard k).caller = b.caller := rfl
@[simp] theorem Block.startQuery_caller (b : Block) :
    b.startQuery.caller = { b.caller with frame := .qry, idx := 0 } := rfl
@[simp] theorem Block.enterWait_caller (b : Block) :
    b.enterWait.caller = { b.caller with fsm := .wait, timer := b.t } := rfl
@[simp] theorem Block.release_caller (b : Block) : b.release.caller = { b.caller with fsm := .idle } := rfl

/-! ### SEND (R135, R136) -/

theorem Block.callerEdge_of_send {b : Block} (I : Inputs) (hf : b.fsm = .send) :
    b.callerEdge I = b.sendEdge I.tx_ready := by
  simp [Block.callerEdge, hf]

/-- The TX handshake in SEND: the byte offered, marked where it is the last (R36). -/
theorem Block.txTransfer_of_send {b : Block} {I : Inputs} (hr : I.rst = false) (hf : b.fsm = .send) :
    b.txTransfer I = if I.tx_ready then some ((b.outputs false).tx_data, b.atLastByte) else none := by
  simp [Block.txTransfer, Block.outputs, hr, hf]

/-- The bytes of a frame are as many as `LEN` says (`40_codec.md` R116). -/
theorem frameBytes_length (sel : FrameSel) (a : Addr) (c : Channel) (v : Value) :
    (frameBytes sel a c v).length = frameLen sel := by
  cases sel with
  | ka => rfl
  | chg => exact encodeChangeParameter_length _ _ _ _
  | qry => exact encodeQueryParameter_length _ _ _

/-- No frame the block emits is longer than ChangeParameter. -/
theorem frameLen_le (sel : FrameSel) : frameLen sel ≤ 19 := by
  cases sel <;> decide

/-- With `idx` inside the frame, the TX port offers that byte of it (R36, R135). -/
theorem Block.tx_data_of_send {b : Block} (hf : b.fsm = .send) (hi : b.idx.toNat < frameLen b.frame) (rst : Bool) :
    (b.outputs rst).tx_data = byteAt (frameBytes b.frame b.a b.c b.v) b.idx.toNat := by
  rw [← frameBytes_length b.frame b.a b.c b.v] at hi
  simp [Block.outputs, Block.txData, hf, byteAt, List.getD_eq_getElem?_getD, hi]

/-- Settles O21: the edge in SEND stalls, moves one byte on, or, at the last byte, is left to
`SendFrameCompletionEdge`. -/
theorem sendByteEdge : Obligations.SendByteEdge := by
  intro s hr hf hi
  refine ⟨Block.tx_data_of_send hf hi false, ?_⟩
  have hcall := Block.callerEdge_of_send s.input hf
  rw [Block.txTransfer_of_send hr hf]
  rcases s.block.sendEdge_cases s.input.tx_ready with ⟨hv, he⟩ | ⟨hv, hnext, he⟩ | ⟨hv, hlast, _⟩
  · obtain ⟨t, hstep, hcaller, hcommits⟩ := exists_step_of_kept hr (hcall.trans he) rfl rfl
    exact ⟨t, hstep, by simp [hv, hcaller, hcommits], by simp [hv]⟩
  · obtain ⟨t, hstep, hcaller, hcommits⟩ := exists_step_of_kept hr (hcall.trans he) rfl rfl
    have hidx : t.block.idx = s.block.idx + 1 := congrArg CallerRegs.idx hcaller
    have hcount : t.block.idx.toNat = s.block.idx.toNat + 1 := by
      have := frameLen_le s.block.frame
      bv_omega
    refine ⟨t, hstep, by simp [hv], fun _ _ => ⟨by simp [hv, Block.atLastByte, hnext], ?_, hcount, hcommits⟩⟩
    rw [hcaller, hidx, Block.nextByte_caller]
  · exact ⟨_, step_of_running hr, by simp [hv], fun _ hlt => absurd hlast hlt.ne⟩

/-- Settles O22: the edge is the frame's own continuation, and SET_CONFIRM's alone clears anything. -/
theorem sendFrameCompletionEdge : Obligations.SendFrameCompletionEdge := by
  intro s hr hf hv hi
  have hlast : s.block.atLastByte = true := s.block.atLastByte_iff.mpr hi
  have hcall : s.block.callerEdge s.input = s.block.frameSent := by
    simp [Block.callerEdge_of_send s.input hf, Block.sendEdge, hv, hlast]
  refine ⟨by simp [Block.txTransfer_of_send hr hf, hv, hlast], ?_⟩
  rcases s.block.frameSent_cases with ⟨hs, he⟩ | ⟨hs, ho, he⟩ | ⟨hs, ho, he⟩ | ⟨hs, he⟩
  · obtain ⟨t, hstep, hcaller, hcommits⟩ := exists_step_of_kept hr (hcall.trans he) rfl rfl
    exact ⟨t, hstep, by simp [hs, hcaller, hcommits]⟩
  · obtain ⟨t, hstep, hcaller, hcommits⟩ := exists_step_of_kept hr (hcall.trans he) rfl rfl
    exact ⟨t, hstep, by simp [hs, ho, hcaller, hcommits]⟩
  · obtain ⟨t, hstep, hcaller, hcommits⟩ := exists_step_of_discarded hr (hcall.trans he) rfl (by simp)
    exact ⟨t, hstep, by simpa [hs, ho, hcaller] using hcommits⟩
  · obtain ⟨t, hstep, hcaller, hcommits⟩ := exists_step_of_kept hr (hcall.trans he) rfl rfl
    exact ⟨t, hstep, by simp [hs, hcaller, hcommits]⟩

/-! ### WAIT (R138 to R143) -/

theorem Block.callerEdge_of_wait {b : Block} (I : Inputs) (hf : b.fsm = .wait) :
    b.callerEdge I = b.waitEdge I.tick := by
  simp [Block.callerEdge, hf]

theorem Block.waitEdge_of_found {b : Block} {x : Value} (tick : Bool) (h : b.found = some x) :
    b.waitEdge tick = (b.discard b.key).complete (foundStatus b.op x b.v) x := by
  simp [Block.waitEdge, h]

theorem Block.waitEdge_of_expired {b : Block} (tick : Bool) (h : b.found = none) (ht : b.timer = 0) :
    b.waitEdge tick = b.complete .timeout 0 := by
  simp [Block.waitEdge, h, ht]

theorem Block.waitEdge_of_waiting {b : Block} (tick : Bool) (h : b.found = none) (ht : b.timer ≠ 0) :
    b.waitEdge tick = { b with wake := false, timer := if tick then b.timer - 1 else b.timer } := by
  rw [Block.waitEdge, h, ← Block.keepWaiting_eq]
  exact if_neg ht

/-- A WAIT finds nothing where `wake` is down or the key absent (R138). -/
theorem Block.found_eq_none_of_or {b : Block} (h : b.wake = false ∨ tblRead b.table (b.c, b.a) = none) :
    b.found = none := by
  refine Block.found_eq_none.mpr fun hw => ?_
  rcases h with hdown | habsent
  · simp [hw] at hdown
  · exact habsent

/-- Settles O23: the pop clears the awaited key, and the status is the operation's own. -/
theorem waitFindsItsEntry : Obligations.WaitFindsItsEntry := by
  intro s x hr hf hw hx
  have hfound : s.block.found = some x := Block.found_eq_some.mpr ⟨hw, hx⟩
  have hcall := (Block.callerEdge_of_wait s.input hf).trans (Block.waitEdge_of_found _ hfound)
  obtain ⟨t, hstep, hcaller, hcommits⟩ := exists_step_of_discarded (k := s.block.key) hr hcall rfl (by simp)
  rw [Block.complete_caller, Block.discard_caller] at hcaller
  refine ⟨t, hstep, hcommits, fun ho => ?_, fun ho hxv => ?_, fun ho hxv => ?_⟩
  · simp [hcaller, ho, foundStatus]
  · simp [hcaller, ho, foundStatus, hxv]
  · simp [hcaller, ho, foundStatus, hxv]

/-- Settles O24: the expiry completes the command and clears nothing. -/
theorem waitTimesOut : Obligations.WaitTimesOut := by
  intro s hr hf hnone ht
  have hcall := (Block.callerEdge_of_wait s.input hf).trans
    (Block.waitEdge_of_expired _ (Block.found_eq_none_of_or hnone) ht)
  exact exists_step_of_kept hr hcall rfl rfl

/-- Settles O25: a wait that goes on clears `wake` where it is up and takes one tick from a timer above 0. -/
theorem waitRetriesOnRemainingBudget : Obligations.WaitRetriesOnRemainingBudget := by
  intro s hr hf hnone ht
  have hcall := (Block.callerEdge_of_wait s.input hf).trans
    (Block.waitEdge_of_waiting _ (Block.found_eq_none_of_or hnone) ht)
  obtain ⟨t, hstep, hcaller, hcommits⟩ :=
    exists_step_of_callerEdge (clr := none) (wclr := s.block.wake) hr hcall (by simp) (by simp)
  have htimer : t.block.timer = if s.input.tick then s.block.timer - 1 else s.block.timer :=
    congrArg CallerRegs.timer hcaller
  refine ⟨t, hstep, ?_, fun hk => ?_, fun hk => ?_, hcommits⟩
  · rw [hcaller, htimer]
    rfl
  · rw [htimer, if_pos hk]
    bv_omega
  · simp [htimer, hk]

/-! ### RESP (R144) -/

theorem Block.callerEdge_of_resp {b : Block} (I : Inputs) (hf : b.fsm = .resp) :
    b.callerEdge I = b.respEdge I.rsp_ready := by
  simp [Block.callerEdge, hf]

/-- The response handshake in RESP. -/
theorem Block.rspTaken_of_resp {b : Block} {I : Inputs} (hr : I.rst = false) (hf : b.fsm = .resp) :
    b.rspTaken I = I.rsp_ready := by
  simp [Block.rspTaken, Block.outputs, hr, hf]

/-- The response port shows the caller path's elements alone (R36). -/
theorem Block.response_congr {b b' : Block} (h : b.caller = b'.caller) (rst : Bool) :
    (b.outputs rst).rsp_valid = (b'.outputs rst).rsp_valid ∧ (b.outputs rst).rsp_op = (b'.outputs rst).rsp_op ∧
      (b.outputs rst).rsp_status = (b'.outputs rst).rsp_status ∧
      (b.outputs rst).rsp_value = (b'.outputs rst).rsp_value ∧
      (b.outputs rst).rsp_found = (b'.outputs rst).rsp_found ∧
      (b.outputs rst).rsp_confirmed = (b'.outputs rst).rsp_confirmed := by
  have hfsm : b.fsm = b'.fsm := congrArg CallerRegs.fsm h
  have hop : b.op = b'.op := congrArg CallerRegs.op h
  have hstatus : b.status = b'.status := congrArg CallerRegs.status h
  have hvalue : b.rvalue = b'.rvalue := congrArg CallerRegs.rvalue h
  simp [Block.outputs, hfsm, hop, hstatus, hvalue]

/-- Settles O26: the edge in RESP holds the whole caller path or releases it. -/
theorem responseHandshakeEdge : Obligations.ResponseHandshakeEdge := by
  intro s hr hf
  have hvalid : (s.block.outputs false).rsp_valid = true := by simp [Block.outputs, hf]
  have hcall := Block.callerEdge_of_resp s.input hf
  refine ⟨hvalid, ?_⟩
  rw [Block.rspTaken_of_resp hr hf]
  rcases s.block.respEdge_cases s.input.rsp_ready with ⟨hv, he⟩ | ⟨hv, he⟩
  · obtain ⟨t, hstep, hcaller, hcommits⟩ := exists_step_of_kept hr (hcall.trans he) rfl rfl
    have hheld := Block.response_congr hcaller false
    rw [hvalid] at hheld
    exact ⟨t, hstep, hcommits, by simp [hv], fun _ => ⟨hv, hcaller, hheld⟩⟩
  · obtain ⟨t, hstep, hcaller, hcommits⟩ := exists_step_of_kept hr (hcall.trans he) rfl rfl
    exact ⟨t, hstep, hcommits, fun _ => ⟨hv, hcaller⟩, by simp [hv]⟩

end Sys2Proof.Machine
end

section
/-! Received frames: what `exec` makes of each, and what the edge that completes one does whatever the caller path does
at it. The caller path reads nothing of the RX port and writes nothing of the inbound buffer (R179), so the message that
completes is fixed by the sampled block and vector alone. -/

namespace Sys2Proof.Machine

/-! ### A received message -/

/-- A Reply's value is written at its key (R147). -/
@[simp] theorem Block.receive_reply_table (b : Block) (ch : Channel) (p : Addr) (x : Value) :
    (b.receive (.replyParameter ch p x)).table = tblWrite b.table (ch, p) x := rfl

/-- A Reply raises `wake` (R147). -/
@[simp] theorem Block.receive_reply_wake (b : Block) (ch : Channel) (p : Addr) (x : Value) :
    (b.receive (.replyParameter ch p x)).wake = true := Block.insertReply_wake _ _ _

/-- No other message touches the table or `wake` (R148). -/
theorem Block.receive_shared_of_not_reply (b : Block) {m : Msg} (h : ∀ ch p x, m ≠ .replyParameter ch p x) :
    (b.receive m).table = b.table ∧ (b.receive m).wake = b.wake := by
  cases m with
  | replyParameter ch p x => exact absurd rfl (h ch p x)
  | keepalive => exact ⟨rfl, rfl⟩
  | changeParameter ch p x => exact ⟨rfl, rfl⟩
  | queryParameter ch p => exact ⟨rfl, rfl⟩
  | unknown raw => exact ⟨rfl, rfl⟩

/-- Settles O9: each of the four frames is received as its message, which only observes it. -/
theorem droppedFramesExecute : Obligations.DroppedFramesExecute := fun s ch p x raw =>
  ⟨exec_toInstr .keepalive s, exec_toInstr (.changeParameter ch p x) s, exec_toInstr (.queryParameter ch p) s,
    exec_toInstr (.unknown raw) s⟩

/-- Settles O10, by the laws of one table write. -/
theorem replyFrameExecutes : Obligations.ReplyFrameExecutes := by
  intro s ch p x
  refine ⟨_, exec_toInstr (.replyParameter ch p x) s, tblRead_tblWrite_same _ _ _,
    fun k hk => tblRead_tblWrite_other _ x hk, ?_⟩
  simp [State.withBlock, Block.receive, Block.observe, Block.insertReply, wakeAfter]

/-! ### The listener path's edge, whatever the caller path does -/

/-- What the arriving byte makes of the inbound buffer and the count is the listener path's alone. -/
theorem Block.inbound_congr {b b' : Block} (h : b.listener = b'.listener) (data : Byte) :
    b.rxBytes data = b'.rxBytes data ∧ b.rxCount = b'.rxCount := by
  have hbuf : b.rx_buf = b'.rx_buf := congrArg ListenerRegs.rx_buf h
  have hlen : b.rx_len = b'.rx_len := congrArg ListenerRegs.rx_len h
  simp [Block.rxBytes, Block.rxCount, hbuf, hlen]

/-- So is the message it completes. -/
theorem Block.rxMessage_congr {b b' : Block} (h : b.listener = b'.listener) (data : Byte) :
    b.rxMessage data = b'.rxMessage data := by
  obtain ⟨hbytes, hcount⟩ := Block.inbound_congr h data
  rw [Block.rxMessage, Block.rxMessage, hbytes, hcount]

/-- An edge without a byte, on the listener path's elements (R149). -/
theorem Block.noFrame_listener (b : Block) : b.noFrame.listener = { b.listener with dec_valid := false } := rfl

/-- An edge that keeps a byte, on the listener path's elements (R145, R149). -/
theorem Block.keepByte_listener (b : Block) (data : Byte) :
    (b.noFrame.keepByte data).listener =
      { b.listener with rx_buf := b.rxBytes data, rx_len := BitVec.ofNat 5 b.rxCount, dec_valid := false } := rfl

/-- The listener path's elements after its edge depend on those before it alone (R179). -/
theorem Block.listenerEdge_listener_congr {b b' : Block} (h : b.listener = b'.listener) (I : Inputs) :
    (b.listenerEdge I).listener = (b'.listenerEdge I).listener := by
  obtain ⟨hbytes, hcount⟩ := Block.inbound_congr h I.rx_data
  unfold Block.listenerEdge
  split
  · split
    · rw [Block.receive_listener, Block.receive_listener, Block.rxMessage_congr h]
    · rw [Block.keepByte_listener, Block.keepByte_listener, h, hbytes, hcount]
  · rw [Block.noFrame_listener, Block.noFrame_listener, h]

/-- The caller path does not read the RX port (R179). -/
theorem Block.callerEdge_rx_valid (b : Block) (I : Inputs) (v : Bool) :
    b.callerEdge { I with rx_valid := v } = b.callerEdge I := rfl

/-- The edge that completes a frame: the caller path's edge, then the message received (R146). -/
theorem step_of_frame {s : State} (hr : s.input.rst = false) (hv : s.input.rx_valid = true)
    (hl : s.input.rx_last = true) :
    step s = .next
      (s.withBlock ((s.block.callerEdge s.input).receive (s.block.rxMessage s.input.rx_data))).advance := by
  rw [step_of_running hr]
  simp [Block.listenerEdge, hv, hl, Block.rxMessage_congr (s.block.callerEdge_listener s.input)]

/-- The edge that has no byte: the caller path's edge, and `dec_valid` falls (R149). -/
theorem step_of_no_byte {s : State} (hr : s.input.rst = false) (hv : s.input.rx_valid = false) :
    step s = .next (s.withBlock (s.block.callerEdge s.input).noFrame).advance := by
  rw [step_of_running hr]
  simp [Block.listenerEdge, hv]

/-- Settles O27: the listener path's elements are what its edge makes of the sampled ones, in each of its three ways. -/
theorem listenerEdgeInEveryState : Obligations.ListenerEdgeInEveryState := by
  intro s hr
  have hlistener := Block.listenerEdge_listener_congr (s.block.callerEdge_listener s.input) s.input
  have hlen : ((s.block.callerEdge s.input).listenerEdge s.input).rx_len = (s.block.listenerEdge s.input).rx_len :=
    congrArg ListenerRegs.rx_len hlistener
  refine ⟨_, step_of_running hr, ?_⟩
  rw [State.advance_block, State.withBlock_block, hlistener, hlen]
  rcases s.block.listenerEdge_cases s.input with ⟨hv, he⟩ | ⟨hv, hl, he⟩ | ⟨hv, hl, he⟩
  · rw [he]
    simp [hv, Block.noFrame_listener]
  · rw [he, Block.keepByte_listener]
    refine ⟨by simp [hv], fun _ => ⟨fun _ => ⟨rfl, s.block.rxCount_toNat⟩, by simp [hl]⟩⟩
  · rw [he, Block.receive_listener]
    exact ⟨by simp [hv], fun _ => ⟨by simp [hl], fun _ => rfl⟩⟩

/-- Settles O28: the Reply is received on whatever block the caller path has left, so its insert comes last (R56). -/
theorem replyIsInsertedInEveryState : Obligations.ReplyIsInsertedInEveryState := by
  intro s ch p x hr hv hl hm
  refine ⟨_, step_of_frame hr hv hl, ?_⟩
  simp [hm]

/-- Settles O29: either edge leaves what the caller path's edge does to the same block. -/
theorem otherFramesAreDropped : Obligations.OtherFramesAreDropped := by
  intro s s' t t' hblock hinput hcompletes hm hstep hstep'
  obtain ⟨hr, hv, hl⟩ : s.input.rst = false ∧ s.input.rx_valid = true ∧ s.input.rx_last = true := by
    simpa [Inputs.completesFrame] using hcompletes
  rw [step_of_frame hr hv hl] at hstep
  have hr' : s'.input.rst = false := by rw [hinput, hr]
  have hv' : s'.input.rx_valid = false := by rw [hinput]
  rw [step_of_no_byte hr' hv', hinput, ← hblock, Block.callerEdge_rx_valid] at hstep'
  injection hstep with ht
  injection hstep' with ht'
  rw [← ht, ← ht']
  exact ⟨Block.receive_caller _ _, Block.receive_shared_of_not_reply _ hm⟩

end Sys2Proof.Machine
end

section
/-! Reset: the outputs while `rst` = 1 and the handshakes they rule out (R191), and the edge that resets the block
(R190). Every handshake is the conjunction of a valid and a ready, one of them an output of the block, so each of the
three falls with the output that `rst` forces to 0. -/

namespace Sys2Proof.Machine

/-! ### The outputs while `rst` = 1 (R36) -/

@[simp] theorem Block.cmd_ready_of_rst (b : Block) : (b.outputs true).cmd_ready = false := rfl

@[simp] theorem Block.tx_valid_of_rst (b : Block) : (b.outputs true).tx_valid = false := rfl

@[simp] theorem Block.rsp_valid_of_rst (b : Block) : (b.outputs true).rsp_valid = false := rfl

/-- Of all outputs `rst` reaches these four alone, and forces them to 0 (R191). -/
theorem Block.outputs_of_rst (b : Block) :
    b.outputs true = { b.outputs false with
      cmd_ready := false, tx_valid := false, tx_last := false, rsp_valid := false } := rfl

/-! ### The handshakes while `rst` = 1 (R11) -/

theorem Block.cmdAccepted_of_rst (b : Block) {I : Inputs} (hr : I.rst = true) : b.cmdAccepted I = false := by
  simp [Block.cmdAccepted, hr]

theorem Block.txTransfer_of_rst (b : Block) {I : Inputs} (hr : I.rst = true) : b.txTransfer I = none := by
  simp [Block.txTransfer, hr]

theorem Block.rspTaken_of_rst (b : Block) {I : Inputs} (hr : I.rst = true) : b.rspTaken I = false := by
  simp [Block.rspTaken, hr]

/-! ### The statements -/

/-- Settles O35: the forced outputs, and with each of them its handshake. -/
theorem outputsDuringReset : Obligations.OutputsDuringReset := fun b _ =>
  ⟨b.outputs_of_rst, b.cmdAccepted_of_rst rfl, b.rspTaken_of_rst rfl, b.txTransfer_of_rst rfl⟩

/-- Settles O18: the step replaces the block by `Block.reset`, whose fields are R20's reset column, and `rst` forbids
each handshake. -/
theorem resetEdgeSetsEveryElement : Obligations.ResetEdgeSetsEveryElement :=
  ⟨fun s hr =>
    ⟨step_of_rst hr, s.block.cmdAccepted_of_rst hr, s.block.txTransfer_of_rst hr, s.block.rspTaken_of_rst hr⟩,
    tblRead_empty, rfl⟩

end Sys2Proof.Machine
end

section
/-! Every run stays safe (R31, R38, R39, R171). Each part of the invariant belongs to one path: the sequencing and result
registers and `idx` to the caller path, the inbound buffer and the decoded registers to the listener path, and the table
and `wake` to both; so each path keeps its parts by its own case list. -/

namespace Sys2Proof.Machine

/-! ### What every step keeps, every run keeps -/

/-- A step is R150's function on the block; it uses up the vector and counts the edge. -/
theorem step_next_iff {s t : State} :
    step s = .next t ↔
      t = { block := refStep s.block s.input, script := s.script.tail, edge := s.edge + 1 } := by
  rw [stepRefinesTheSpecFunction s, Host.Outcome.next.injEq, eq_comm]

theorem step_block {s t : State} (h : step s = .next t) : t.block = refStep s.block s.input := by
  rw [step_next_iff.mp h]

theorem refStep_of_rst (b : Block) {I : Inputs} (hr : I.rst = true) : refStep b I = Block.reset := by
  simp [refStep, hr]

/-- A run of one edge more is a step and the run from there: the machine never stops (R170). -/
theorem run_succ_inv {n : Nat} {s t : State} (h : Host.Core.run Sys2Proof.core (n + 1) s = .next t) :
    ∃ u, step s = .next u ∧ Host.Core.run Sys2Proof.core n u = .next t := by
  refine ⟨_, stepRefinesTheSpecFunction s, ?_⟩
  rwa [run_next n (stepRefinesTheSpecFunction s)] at h

theorem run_invariant {P : State → Prop} (hstep : ∀ s t, P s → step s = .next t → P t) (n : Nat) {s t : State}
    (hs : P s) (h : Host.Core.run Sys2Proof.core n s = .next t) : P t := by
  induction n generalizing s with
  | zero =>
    rw [run_zero] at h
    injection h with h
    exact h ▸ hs
  | succ n ih =>
    obtain ⟨u, hu, hrun⟩ := run_succ_inv h
    exact ih (hstep s u hs hu) hrun

/-! ### The caller path's elements -/

/-- `idx` is inside its frame while `fsm` is SEND (R39). -/
def Block.idxInFrame (b : Block) : Prop := b.fsm = .send → b.idx.toNat < frameLen b.frame

/-- The inbound count saturates and the buffer holds what is counted, up to the cap (R30, R39). -/
def Block.inboundLegal (b : Block) : Prop :=
  b.rx_len.toNat ≤ Config.rxLenSat ∧ b.rx_buf.length = min b.rx_len.toNat Config.rxCap

/-- The legal values of R39 are one condition on each path's elements. -/
theorem Block.legal_iff (b : Block) : b.legal ↔ b.inboundLegal ∧ b.idxInFrame := by
  rw [Block.legal, Block.inboundLegal, Block.idxInFrame, and_assoc]

theorem frameLen_pos (sel : FrameSel) : 0 < frameLen sel := by
  cases sel <;> decide

theorem CallerCase.idxInFrame {b b1 : Block} {I : Inputs} (h : CallerCase b I b1) (hb : b.idxInFrame) :
    b1.idxInFrame := by
  intro hsend
  cases h with
  | rest => exact hb hsend
  | stall => exact hb hsend
  | held => exact hb hsend
  | plain => exact frameLen_pos _
  | query => exact frameLen_pos _
  | confirm => exact frameLen_pos _
  | byte hf _ hi =>
    have hin := hb hf
    have hle := frameLen_le b.frame
    simp only [Block.nextByte_idx, Block.nextByte_frame]
    bv_omega
  | sent => cases hsend
  | await => cases hsend
  | found => cases hsend
  | expired => cases hsend
  | waiting hf => cases hf.symm.trans hsend
  | taken => cases hsend

/-- The operation in progress has the frame on the TX port as its own (R83, R130, R136). -/
theorem CallerCase.sequenced {b b1 : Block} {I : Inputs} (h : CallerCase b I b1) (hb : b.sequenced) :
    b1.sequenced := by
  cases h with
  | rest => exact hb
  | stall => exact hb
  | held => exact hb
  | plain o sel _ _ _ hs =>
    rcases hs with ⟨rfl, rfl⟩ | ⟨rfl, rfl⟩ | ⟨rfl, rfl⟩
    · exact rfl
    · exact .inl rfl
    · exact .inr rfl
  | query => exact .inl rfl
  | byte hf => simpa [Block.sequenced, hf] using hb
  | confirm hf _ _ hs ho =>
    have hop : b.op = .setConfirm := by simpa [Block.sequenced, hf, hs, ho] using hb
    simp [Block.sequenced, hf, hop]
  | await hf _ _ hs =>
    have hop : b.op = .query ∨ b.op = .setConfirm := by simpa [Block.sequenced, hf, hs] using hb
    exact ⟨hs, hop⟩
  | waiting hf => simpa [Block.sequenced, hf] using hb
  | sent => trivial
  | found => trivial
  | expired => trivial
  | taken => trivial

/-- Each completion gives a result of the operation that the sequence has brought there (R171). -/
theorem CallerCase.resultFits {b b1 : Block} {I : Inputs} (h : CallerCase b I b1) (hseq : b.sequenced)
    (hb : b.resultFits) : b1.resultFits := by
  intro hresp
  cases h with
  | rest => exact hb hresp
  | stall => exact hb hresp
  | held => exact hb hresp
  | sent hf _ _ hs =>
    refine ⟨?_, rfl⟩
    rcases hs with hs | ⟨_, ho⟩
    · exact .inl (by simpa [Block.sequenced, hf, hs] using hseq)
    · exact .inr ho
  | found x hf =>
    obtain ⟨_, ho⟩ : b.frame = .qry ∧ (b.op = .query ∨ b.op = .setConfirm) := by
      simpa [Block.sequenced, hf] using hseq
    rcases ho with ho | ho
    · simp [foundStatus, ho]
    · by_cases hx : x = b.v
      · simp [foundStatus, ho, hx]
      · simp [foundStatus, ho, hx]
  | expired hf =>
    obtain ⟨_, ho⟩ : b.frame = .qry ∧ (b.op = .query ∨ b.op = .setConfirm) := by
      simpa [Block.sequenced, hf] using hseq
    exact ⟨ho, rfl⟩
  | plain => cases hresp
  | query => cases hresp
  | byte hf => cases hf.symm.trans hresp
  | confirm hf => cases hf.symm.trans hresp
  | await => cases hresp
  | waiting hf => cases hf.symm.trans hresp
  | taken => cases hresp

/-- The caller path changes the table by at most one clear (R53). -/
theorem CallerCase.table_eq_or_clear {b b1 : Block} {I : Inputs} (h : CallerCase b I b1) :
    b1.table = b.table ∨ ∃ k, b1.table = tblClear b.table k := by
  cases h with
  | query => exact .inr ⟨_, rfl⟩
  | confirm => exact .inr ⟨_, rfl⟩
  | found => exact .inr ⟨_, rfl⟩
  | _ => exact .inl rfl

/-! ### Which elements each part is about -/

theorem Block.idxInFrame_congr {b b' : Block} (h : b.caller = b'.caller) : b.idxInFrame ↔ b'.idxInFrame := by
  have hfsm : b.fsm = b'.fsm := congrArg CallerRegs.fsm h
  have hframe : b.frame = b'.frame := congrArg CallerRegs.frame h
  have hidx : b.idx = b'.idx := congrArg CallerRegs.idx h
  rw [Block.idxInFrame, Block.idxInFrame, hfsm, hframe, hidx]

theorem Block.sequenced_congr {b b' : Block} (h : b.caller = b'.caller) : b.sequenced ↔ b'.sequenced := by
  have hfsm : b.fsm = b'.fsm := congrArg CallerRegs.fsm h
  have hframe : b.frame = b'.frame := congrArg CallerRegs.frame h
  have hop : b.op = b'.op := congrArg CallerRegs.op h
  rw [Block.sequenced, Block.sequenced, hfsm, hframe, hop]

theorem Block.resultFits_congr {b b' : Block} (h : b.caller = b'.caller) : b.resultFits ↔ b'.resultFits := by
  have hfsm : b.fsm = b'.fsm := congrArg CallerRegs.fsm h
  have hstatus : b.status = b'.status := congrArg CallerRegs.status h
  have hop : b.op = b'.op := congrArg CallerRegs.op h
  have hvalue : b.rvalue = b'.rvalue := congrArg CallerRegs.rvalue h
  have hv : b.v = b'.v := congrArg CallerRegs.v h
  rw [Block.resultFits, Block.resultFits, hfsm, hstatus, hop, hvalue, hv]

theorem Block.inboundLegal_congr {b b' : Block} (h : b.listener = b'.listener) :
    b.inboundLegal ↔ b'.inboundLegal := by
  have hbuf : b.rx_buf = b'.rx_buf := congrArg ListenerRegs.rx_buf h
  have hlen : b.rx_len = b'.rx_len := congrArg ListenerRegs.rx_len h
  rw [Block.inboundLegal, Block.inboundLegal, hbuf, hlen]

theorem Block.decodedFits_congr {b b' : Block} (h : b.listener = b'.listener) :
    b.decodedFits ↔ b'.decodedFits := by
  have hkind : b.dec_kind = b'.dec_kind := congrArg ListenerRegs.dec_kind h
  have hchannel : b.dec_channel = b'.dec_channel := congrArg ListenerRegs.dec_channel h
  have hparam : b.dec_param = b'.dec_param := congrArg ListenerRegs.dec_param h
  have hvalue : b.dec_value = b'.dec_value := congrArg ListenerRegs.dec_value h
  rw [Block.decodedFits, Block.decodedFits, hkind, hchannel, hparam, hvalue]

/-! ### The listener path's elements -/

theorem Block.rxBytes_length (b : Block) (data : Byte) :
    (b.rxBytes data).length = if b.rx_len.toNat < Config.rxCap then b.rx_buf.length + 1 else b.rx_buf.length := by
  rw [Block.rxBytes, apply_ite List.length, List.length_append, List.length_singleton]

/-- The inbound buffer with the arriving byte agrees with the count (R145). -/
theorem Block.keepByte_inboundLegal {b : Block} (data : Byte) (hb : b.inboundLegal) :
    (b.noFrame.keepByte data).inboundLegal := by
  obtain ⟨hlen, hbuf⟩ := hb
  have hcount : (b.noFrame.keepByte data).rx_len.toNat = b.rxCount := b.rxCount_toNat
  have hbytes : (b.noFrame.keepByte data).rx_buf = b.rxBytes data := rfl
  rw [Block.inboundLegal, hcount, hbytes, b.rxBytes_length, hbuf]
  refine ⟨Nat.min_le_right _ _, ?_⟩
  split
  all_goals
    simp only [Block.rxCount, Config.rxLenSat, Config.rxCap] at *
    omega

theorem Block.receive_inboundLegal (b : Block) (m : Msg) : (b.receive m).inboundLegal := by
  have hlistener := b.receive_listener m
  have hbuf : (b.receive m).rx_buf = [] := congrArg ListenerRegs.rx_buf hlistener
  have hlen : (b.receive m).rx_len = 0 := congrArg ListenerRegs.rx_len hlistener
  simp [Block.inboundLegal, hbuf, hlen]

/-- A received message shows 0 in the fields its kind lacks (R31). -/
theorem Block.receive_decodedFits (b : Block) (m : Msg) : (b.receive m).decodedFits := by
  cases m with
  | keepalive => exact ⟨rfl, rfl, rfl⟩
  | changeParameter ch p x => trivial
  | queryParameter ch p => exact rfl
  | replyParameter ch p x => trivial
  | unknown raw => exact ⟨rfl, rfl, rfl⟩

/-- A received message changes the table by at most one write (R52). -/
theorem Block.receive_tableWf {b : Block} (m : Msg) (hb : Memory.wf b.table = true) :
    Memory.wf (b.receive m).table = true := by
  cases m with
  | replyParameter ch p x => exact wf_tblWrite (ch, p) x hb
  | keepalive => exact hb
  | changeParameter ch p x => exact hb
  | queryParameter ch p => exact hb
  | unknown raw => exact hb

/-! ### The whole invariant -/

theorem CallerCase.inv {b b1 : Block} {I : Inputs} (h : CallerCase b I b1) (hl : b1.listener = b.listener)
    (hb : b.Inv) : b1.Inv := by
  obtain ⟨hinbound, hidx⟩ := (b.legal_iff).mp hb.legal
  refine
    { legal := (b1.legal_iff).mpr ⟨(Block.inboundLegal_congr hl).mpr hinbound, h.idxInFrame hidx⟩
      wakeCovers := h.wakeCovers hb.wakeCovers
      sequenced := h.sequenced hb.sequenced
      resultFits := h.resultFits hb.sequenced hb.resultFits
      decodedFits := (Block.decodedFits_congr hl).mpr hb.decodedFits
      tableWf := ?_ }
  rcases h.table_eq_or_clear with ht | ⟨k, ht⟩
  · rw [ht]
    exact hb.tableWf
  · rw [ht]
    exact wf_tblClear k hb.tableWf

theorem Block.listenerEdge_inv {b : Block} {I : Inputs} (hr : I.rst = false) (hb : b.Inv) :
    (b.listenerEdge I).Inv := by
  obtain ⟨hinbound, hidx⟩ := (b.legal_iff).mp hb.legal
  have hc := b.listenerEdge_caller I
  obtain ⟨hin, hdec, hwf⟩ : (b.listenerEdge I).inboundLegal ∧ (b.listenerEdge I).decodedFits ∧
      Memory.wf (b.listenerEdge I).table = true := by
    rcases b.listenerEdge_cases I with ⟨_, he⟩ | ⟨_, _, he⟩ | ⟨_, _, he⟩
    · rw [he]
      exact ⟨hinbound, hb.decodedFits, hb.tableWf⟩
    · rw [he]
      exact ⟨Block.keepByte_inboundLegal _ hinbound, hb.decodedFits, hb.tableWf⟩
    · rw [he]
      exact ⟨b.receive_inboundLegal _, b.receive_decodedFits _, Block.receive_tableWf _ hb.tableWf⟩
  exact
    { legal := (Block.legal_iff _).mpr ⟨hin, (Block.idxInFrame_congr hc).mpr hidx⟩
      wakeCovers := Block.listenerEdge_wakeCovers hr hb.wakeCovers
      sequenced := (Block.sequenced_congr hc).mpr hb.sequenced
      resultFits := (Block.resultFits_congr hc).mpr hb.resultFits
      decodedFits := hdec
      tableWf := hwf }

theorem Block.reset_inv : Block.reset.Inv where
  legal := ⟨by decide, rfl, nofun⟩
  wakeCovers := Block.reset_wakeCovers
  sequenced := trivial
  resultFits := nofun
  decodedFits := ⟨rfl, rfl, rfl⟩
  tableWf := wf_empty

/-- Settles O38: the reset block meets each part of the invariant. -/
theorem resetStateIsSafe : Obligations.ResetStateIsSafe := Block.reset_inv

/-- Every edge keeps the invariant: a reset sets it up, any other edge is the two paths in turn. -/
theorem refStep_inv {b : Block} (I : Inputs) (hb : b.Inv) : (refStep b I).Inv := by
  cases hr : I.rst with
  | true =>
    rw [refStep_of_rst b hr]
    exact Block.reset_inv
  | false =>
    rw [refStep_of_running hr]
    exact Block.listenerEdge_inv hr ((b.callerEdge_case I).inv (b.callerEdge_listener I) hb)

/-- Settles O39: every step keeps the invariant, so every run does. -/
theorem everyRunStaysSafe : Obligations.EveryRunStaysSafe := fun n _ _ hs hrun =>
  run_invariant (P := fun s => s.block.Inv) (fun _ _ hb h => step_block h ▸ refStep_inv _ hb) n hs hrun

end Sys2Proof.Machine
end

section
/-! What a caller can tell apart (R55, R196). The caller path reads the table at the awaited key alone, and there R38 makes
`wake` say nothing that the entry does not say; so blocks that are alike go the same way at an edge, and only an insert at
the awaited key could tell them apart. -/

namespace Sys2Proof.Machine

/-! ### The caller path on alike blocks -/

/-- The case list of the caller path is a function of the block and the vector. -/
theorem CallerCase.unique {b b1 b2 : Block} {I : Inputs} (h1 : CallerCase b I b1) (h2 : CallerCase b I b2) :
    b1 = b2 := by
  obtain ⟨N, R, hcaller, _, _, hcommit⟩ := h1.refCaller_eq
  obtain ⟨N', R', hcaller', _, _, hcommit'⟩ := h2.refCaller_eq
  obtain ⟨rfl, rfl⟩ := Prod.mk.inj (hcaller.symm.trans hcaller')
  exact hcommit.symm.trans hcommit'

/-- Two blocks with the same caller elements differ in the shared and the listener's elements alone. -/
theorem Block.exists_eq_with_of_caller {b b' : Block} (h : b.caller = b'.caller) :
    ∃ wake table rx_buf rx_len dec_valid dec_kind dec_channel dec_param dec_value,
      b' = { b with wake, table, rx_buf, rx_len, dec_valid, dec_kind, dec_channel, dec_param, dec_value } := by
  refine ⟨b'.wake, b'.table, b'.rx_buf, b'.rx_len, b'.dec_valid, b'.dec_kind, b'.dec_channel, b'.dec_param,
    b'.dec_value, ?_⟩
  obtain ⟨⟩ := b
  obtain ⟨⟩ := b'
  simp only [Block.caller, CallerRegs.mk.injEq] at h
  simp [h]

theorem Block.not_awaiting_of_resp {b : Block} (h : b.fsm = .resp) : ¬ b.awaiting := by
  simp [Block.awaiting, h]

/-- An awaited entry has raised `wake` (R38), so what a WAIT finds is what is there. -/
theorem Block.wake_of_awaited {b : Block} {x : Value} (hb : b.wakeCovers) (ha : b.awaiting)
    (hx : tblRead b.table b.key = some x) : b.wake = true :=
  hb ha (by rw [hx]; rfl)

/-- A WAIT that finds nothing has nothing at its key. -/
theorem Block.absent_of_not_found {b : Block} (hb : b.wakeCovers) (ha : b.awaiting)
    (hnone : b.wake = true → tblRead b.table b.key = none) : tblRead b.table b.key = none := by
  cases hx : tblRead b.table b.key with
  | none => rfl
  | some x => exact hx.symm.trans (hnone (Block.wake_of_awaited hb ha hx))

/-- Of two alike blocks the second goes the way the first goes: the caller elements still agree, and so does the entry
of a query then awaited. -/
theorem CallerCase.alike {b b' b1 : Block} {I : Inputs} (h : CallerCase b I b1) (hb : b.alike b') :
    ∃ b1', CallerCase b' I b1' ∧ b1.caller = b1'.caller ∧
      (b1.awaiting → tblRead b1.table b1.key = tblRead b1'.table b1'.key) := by
  obtain ⟨hcaller, hcovers, hcovers', hentry⟩ := hb
  obtain ⟨wake, table, rx_buf, rx_len, dec_valid, dec_kind, dec_channel, dec_param, dec_value, rfl⟩ :=
    Block.exists_eq_with_of_caller hcaller
  have cleared (T T' : Table) (k : Key) : tblRead (tblClear T k) k = tblRead (tblClear T' k) k := by simp
  cases h with
  | rest hf hv => exact ⟨_, .rest hf hv, rfl, hentry⟩
  | plain o sel hf hv ho hs =>
    refine ⟨_, .plain o sel hf hv ho hs, rfl, fun ha => absurd ha ?_⟩
    rcases hs with ⟨_, rfl⟩ | ⟨_, rfl⟩ | ⟨_, rfl⟩ <;> simp [Block.awaiting]
  | query hf hv ho => exact ⟨_, .query hf hv ho, rfl, fun _ => cleared _ _ _⟩
  | stall hf hv => exact ⟨_, .stall hf hv, rfl, hentry⟩
  | byte hf hv hi => exact ⟨_, .byte hf hv hi, rfl, hentry⟩
  | sent hf hv hi hs => exact ⟨_, .sent hf hv hi hs, rfl, fun ha => absurd ha (Block.not_awaiting_of_resp rfl)⟩
  | confirm hf hv hi hs ho => exact ⟨_, .confirm hf hv hi hs ho, rfl, fun _ => cleared _ _ _⟩
  | await hf hv hi hs => exact ⟨_, .await hf hv hi hs, rfl, fun _ => hentry (.inr ⟨hf, hs⟩)⟩
  | found x hf _ hx =>
    have hx' := (hentry (.inl hf)).symm.trans hx
    exact ⟨_, .found x hf (Block.wake_of_awaited hcovers' (.inl hf) hx') hx', rfl,
      fun ha => absurd ha (Block.not_awaiting_of_resp rfl)⟩
  | expired hf hx ht =>
    have habsent := (hentry (.inl hf)).symm.trans (Block.absent_of_not_found hcovers (.inl hf) hx)
    exact ⟨_, .expired hf (fun _ => habsent) ht, rfl, fun ha => absurd ha (Block.not_awaiting_of_resp rfl)⟩
  | waiting hf hx ht =>
    have habsent := (hentry (.inl hf)).symm.trans (Block.absent_of_not_found hcovers (.inl hf) hx)
    exact ⟨_, .waiting hf (fun _ => habsent) ht, rfl, fun _ => hentry (.inl hf)⟩
  | held hf hv => exact ⟨_, .held hf hv, rfl, hentry⟩
  | taken hf hv => exact ⟨_, .taken hf hv, rfl, fun ha => by simp [Block.awaiting] at ha⟩

theorem Block.callerEdge_alike {b b' : Block} (hb : b.alike b') (I : Inputs) :
    (b.callerEdge I).alike (b'.callerEdge I) := by
  have hcase := b.callerEdge_case I
  have hcase' := b'.callerEdge_case I
  obtain ⟨b1', h1', hcaller, hentry⟩ := hcase.alike hb
  obtain rfl := h1'.unique hcase'
  obtain ⟨_, hcovers, hcovers', _⟩ := hb
  exact ⟨hcaller, hcase.wakeCovers hcovers, hcase'.wakeCovers hcovers', hentry⟩

theorem Block.alike.caller_eq {b b' : Block} (h : b.alike b') : b.caller = b'.caller := by
  obtain ⟨hcaller, _⟩ := h
  exact hcaller

theorem Block.alike.entry_eq {b b' : Block} (h : b.alike b') (ha : b.awaiting) :
    tblRead b.table b.key = tblRead b'.table b'.key := by
  obtain ⟨_, _, _, hentry⟩ := h
  exact hentry ha

/-! ### The listener path over it -/

/-- Alike blocks stay alike over the listener path's edges where these leave the awaited key's entries equal. -/
theorem Block.listenerEdge_alike {b b' : Block} {I J : Inputs} (hI : I.rst = false) (hJ : J.rst = false)
    (hb : b.alike b')
    (hins : b.awaiting → entryAfter (tblRead b.table b.key) none (b.insertAsked I) b.key =
      entryAfter (tblRead b'.table b'.key) none (b'.insertAsked J) b'.key) :
    (b.listenerEdge I).alike (b'.listenerEdge J) := by
  obtain ⟨hcaller, hcovers, hcovers', _⟩ := hb
  have hI' := b.listenerEdge_caller I
  have hJ' := b'.listenerEdge_caller J
  obtain ⟨htable, _⟩ := b.listenerEdge_shared hI
  obtain ⟨htable', _⟩ := b'.listenerEdge_shared hJ
  refine ⟨hI'.trans (hcaller.trans hJ'.symm), Block.listenerEdge_wakeCovers hI hcovers,
    Block.listenerEdge_wakeCovers hJ hcovers', fun ha => ?_⟩
  rw [Block.awaiting_congr hI'] at ha
  rw [htable, htable', Block.key_congr hI', Block.key_congr hJ']
  exact hins ha

/-- Without a Reply for the key its entry is not inserted (R147). -/
theorem Block.insertAsked_ne_of_not_repliesFor {b : Block} {I : Inputs} {k : Key} (h : ¬ b.repliesFor I k)
    (x : Value) : b.insertAsked I ≠ some (k, x) :=
  fun hi => h ⟨x, Block.insertAsked_eq_some.mp hi⟩

/-- An insert at another key, or none, leaves the entry as it was (R52). -/
theorem entryAfter_of_ne {old : Option Value} {ins : Option (Key × Value)} {k : Key}
    (h : ∀ x, ins ≠ some (k, x)) : entryAfter old none ins k = old := by
  rcases ins with _ | ⟨k', x⟩
  · rfl
  · have hk : k' ≠ k := by
      rintro rfl
      exact h x rfl
    simp [entryAfter, hk]

/-- A Reply completes on what the caller path leaves as it does on the sampled block. -/
theorem Block.repliesFor_congr {b b' : Block} (h : b.listener = b'.listener) (I : Inputs) (k : Key) :
    b.repliesFor I k ↔ b'.repliesFor I k := by
  have hbuf : b.rx_buf = b'.rx_buf := congrArg ListenerRegs.rx_buf h
  have hlen : b.rx_len = b'.rx_len := congrArg ListenerRegs.rx_len h
  rw [Block.repliesFor, Block.repliesFor, Block.completed_congr hbuf hlen]

/-! ### The statements -/

theorem Block.alike_reset : Block.reset.alike Block.reset :=
  ⟨rfl, Block.reset_wakeCovers, Block.reset_wakeCovers, fun _ => rfl⟩

/-- The caller path does not read the RX port. -/
theorem Block.callerEdge_sameButRx (b : Block) {I J : Inputs} (h : I.sameButRx J) :
    b.callerEdge J = b.callerEdge I := by
  rw [h]
  rfl

/-- Alike blocks stay alike at an edge where the vectors differ on the RX port alone and neither listener path inserts at
the key then awaited. -/
theorem refStep_alike {b b' : Block} {I J : Inputs} (hb : b.alike b') (hin : I.sameButRx J)
    (hquiet : (refStep b I).awaiting →
      ¬ b.repliesFor I (refStep b I).key ∧ ¬ b'.repliesFor J (refStep b I).key) :
    (refStep b I).alike (refStep b' J) := by
  have hrst : J.rst = I.rst := by rw [hin]
  cases hr : I.rst with
  | true =>
    rw [refStep_of_rst b hr, refStep_of_rst b' (hrst.trans hr)]
    exact Block.alike_reset
  | false =>
    have hedge := Block.callerEdge_alike hb I
    have hcaller := (b.callerEdge I).listenerEdge_caller I
    rw [refStep_of_running hr] at hquiet
    rw [refStep_of_running hr, refStep_of_running (hrst.trans hr), b'.callerEdge_sameButRx hin]
    refine Block.listenerEdge_alike hr (hrst.trans hr) hedge fun ha => ?_
    obtain ⟨hno, hno'⟩ := hquiet ((Block.awaiting_congr hcaller).mpr ha)
    rw [Block.key_congr hcaller] at hno hno'
    rw [← Block.repliesFor_congr (b.callerEdge_listener I)] at hno
    rw [← Block.repliesFor_congr (b'.callerEdge_listener I), Block.key_congr hedge.caller_eq] at hno'
    rw [entryAfter_of_ne (Block.insertAsked_ne_of_not_repliesFor hno),
      entryAfter_of_ne (Block.insertAsked_ne_of_not_repliesFor hno')]
    exact hedge.entry_eq ha

/-- Settles O40: the caller paths stay alike, and neither listener path inserts at the key then awaited. -/
theorem crossTalkIsInvisible : Obligations.CrossTalkIsInvisible := by
  intro s s' t t' hb hin h h' hquiet
  rw [step_block h] at hquiet ⊢
  rw [step_block h']
  exact refStep_alike hb hin hquiet

/-- The output ports show the caller's and the listener's elements alone (R36). -/
theorem Block.outputs_congr {b b' : Block} (hc : b.caller = b'.caller) (hl : b.listener = b'.listener)
    (rst : Bool) : b.outputs rst = b'.outputs rst := by
  obtain ⟨wake, table, rx_buf, rx_len, dec_valid, dec_kind, dec_channel, dec_param, dec_value, rfl⟩ :=
    Block.exists_eq_with_of_caller hc
  obtain ⟨⟩ := b
  simp only [Block.listener, ListenerRegs.mk.injEq] at hl
  obtain ⟨rfl, rfl, rfl, rfl, rfl, rfl, rfl⟩ := hl
  rfl

/-- Alike blocks with the same inbound bytes stay alike under the same vector, whatever it completes. -/
theorem refStep_alike_same {b b' : Block} (I : Inputs) (hb : b.alike b') (hl : b.listener = b'.listener) :
    (refStep b I).alike (refStep b' I) ∧ (refStep b I).listener = (refStep b' I).listener := by
  cases hr : I.rst with
  | true =>
    rw [refStep_of_rst b hr, refStep_of_rst b' hr]
    exact ⟨Block.alike_reset, rfl⟩
  | false =>
    have hedge := Block.callerEdge_alike hb I
    have hlistener : (b.callerEdge I).listener = (b'.callerEdge I).listener := by
      rw [Block.callerEdge_listener, Block.callerEdge_listener, hl]
    have hins := Block.insertAsked_congr (congrArg ListenerRegs.rx_buf hlistener)
      (congrArg ListenerRegs.rx_len hlistener) I
    rw [refStep_of_running hr, refStep_of_running hr]
    refine ⟨Block.listenerEdge_alike hr hr hedge fun ha => ?_, Block.listenerEdge_listener_congr hlistener I⟩
    rw [hins, hedge.entry_eq ha, Block.key_congr hedge.caller_eq]

/-- Two machines with the same inputs to come that no port can tell apart, now or later. -/
structure State.SamePorts (s s' : State) : Prop where
  script : s.script = s'.script
  edge : s.edge = s'.edge
  alike : s.block.alike s'.block
  listener : s.block.listener = s'.block.listener

theorem State.SamePorts.input {s s' : State} (h : s.SamePorts s') : s.input = s'.input := by
  rw [State.input, State.input, h.script, h.edge]

theorem State.SamePorts.step {s s' t t' : State} (hs : s.SamePorts s') (h : step s = .next t)
    (h' : step s' = .next t') : t.SamePorts t' := by
  obtain ⟨halike, hlistener⟩ := refStep_alike_same s.input hs.alike hs.listener
  rw [step_next_iff.mp h, step_next_iff.mp h', ← hs.input, ← hs.script, ← hs.edge]
  exact ⟨rfl, rfl, halike, hlistener⟩

theorem State.SamePorts.run {n : Nat} {s s' t t' : State} (hs : s.SamePorts s')
    (h : Host.Core.run Sys2Proof.core n s = .next t) (h' : Host.Core.run Sys2Proof.core n s' = .next t') :
    t.SamePorts t' := by
  induction n generalizing s s' with
  | zero =>
    rw [run_zero] at h h'
    injection h with h
    injection h' with h'
    exact h ▸ h' ▸ hs
  | succ n ih =>
    obtain ⟨u, hu, hrun⟩ := run_succ_inv h
    obtain ⟨u', hu', hrun'⟩ := run_succ_inv h'
    exact ih (hs.step hu hu') hrun hrun'

/-- Settles O42: every edge keeps the relation, and the ports show nothing outside it. -/
theorem onlyTheAwaitedEntryReachesThePorts : Obligations.OnlyTheAwaitedEntryReachesThePorts := by
  intro n s s' t t' hscript hedge halike hlistener h h' rst
  have ht : t.SamePorts t' := State.SamePorts.run ⟨hscript, hedge, halike, hlistener⟩ h h'
  exact Block.outputs_congr ht.alike.caller_eq ht.listener rst

end Sys2Proof.Machine
end

section
/-! Inbound frames as the listener path keeps them: 20 bytes and a saturated count (R112, R145). What these show of a frame
is what the whole frame shows, so a frame presented byte by byte is received as the Codec decodes the whole. -/

namespace Sys2Proof

/-! ### The capped decoder (R112) -/

/-- No shape is longer than a Reply (R72 to R75). -/
theorem decode_eq_unknown_of_long {f : Frame} (h : Wire.replyLen < f.length) : decode f = .unknown f := by
  have hlen (n : Nat) (hn : n ≤ Wire.replyLen) : f.length ≠ n := fun e => absurd (e ▸ h) (Nat.not_lt.mpr hn)
  rw [decode_eq_unknown_iff, isRecognised, isKeepalive_eq_false_of_length (hlen _ (by decide)),
    isChange_eq_false_of_length (hlen _ (by decide)), isQuery_eq_false_of_length (hlen _ (by decide)),
    isReply_eq_false_of_length (hlen _ (by decide))]
  decide

/-- Only a frame of the Reply's length decodes to a Reply (R75). -/
theorem length_of_decode_reply {f : Frame} {ch : Channel} {p : Addr} {x : Value}
    (h : decode f = .replyParameter ch p x) : f.length = Wire.replyLen := by
  by_contra hlen
  have hr := isReply_eq_false_of_length hlen
  cases hk : isKeepalive f with
  | true => simp [decode_of_isKeepalive hk] at h
  | false =>
    cases hc : isChange f with
    | true => simp [decode_of_isChange hc] at h
    | false =>
      cases hq : isQuery f with
      | true => simp [decode_of_isQuery hq] at h
      | false => simp [decode, hk, hc, hq, hr] at h

/-- What the listener path keeps of a frame is the whole frame, or shows as Unknown a frame that is (R112). -/
theorem decodeCapped_take (f : Frame) :
    decodeCapped (f.take Config.rxCap) (min f.length Config.rxLenSat) = decode f ∨
      (∃ raw, decodeCapped (f.take Config.rxCap) (min f.length Config.rxLenSat) = .unknown raw) ∧
        decode f = .unknown f := by
  by_cases h : f.length ≤ Wire.replyLen
  · left
    have hcount : ¬ Config.rxLenSat ≤ min f.length Config.rxLenSat := by
      simp only [Config.rxLenSat, Wire.replyLen] at h ⊢
      omega
    rw [decodeCapped, if_neg hcount, List.take_of_length_le (i := Config.rxCap) h]
  · right
    have hcount : Config.rxLenSat ≤ min f.length Config.rxLenSat := by
      simp only [Config.rxLenSat, Wire.replyLen] at h ⊢
      omega
    exact ⟨⟨_, if_pos hcount⟩, decode_eq_unknown_of_long (Nat.lt_of_not_le h)⟩

end Sys2Proof

namespace Sys2Proof.Machine

/-- Two messages that the decoded-message port cannot tell apart: equal, or both Unknown (R31, log 18). -/
def SameShown (m m' : Msg) : Prop := kindOf m = kindOf m' ∧ fieldsOrZero m = fieldsOrZero m'

theorem sameShown_decodeCapped (f : Frame) :
    SameShown (decodeCapped (f.take Config.rxCap) (min f.length Config.rxLenSat)) (decode f) := by
  rcases decodeCapped_take f with h | ⟨⟨raw, h⟩, hf⟩
  · rw [h]
    exact ⟨rfl, rfl⟩
  · rw [h, hf]
    exact ⟨rfl, rfl⟩

/-- Settles O8: up to 20 bytes the kept bytes are the frame, beyond them both are Unknown. -/
theorem cappedDecoderShowsTheSame : Obligations.CappedDecoderShowsTheSame := sameShown_decodeCapped

/-- A received message acts on the block by its kind and fields alone (R146 to R148). -/
theorem Block.receive_eq (b : Block) (m : Msg) :
    b.receive m =
      if kindOf m = .reply then
        (b.observe (kindOf m) (fieldsOrZero m).1 (fieldsOrZero m).2.1 (fieldsOrZero m).2.2).insertReply
          ((fieldsOrZero m).1, (fieldsOrZero m).2.1) (fieldsOrZero m).2.2
      else b.observe (kindOf m) (fieldsOrZero m).1 (fieldsOrZero m).2.1 (fieldsOrZero m).2.2 := by
  cases m <;> rfl

theorem Block.receive_congr (b : Block) {m m' : Msg} (h : SameShown m m') : b.receive m = b.receive m' := by
  obtain ⟨hkind, hfields⟩ := h
  rw [b.receive_eq m, b.receive_eq m', hkind, hfields]

/-! ### The bytes of a frame in the inbound buffer (R145, R146) -/

/-- The inbound buffer and count are those of a frame whose bytes so far are `g` (R30, R145). -/
def Block.holds (b : Block) (g : Frame) : Prop :=
  b.rx_buf = g.take Config.rxCap ∧ b.rx_len = BitVec.ofNat 5 (min g.length Config.rxLenSat)

theorem Block.holds_nil {b : Block} (hbuf : b.rx_buf = []) (hlen : b.rx_len = 0) : b.holds [] := ⟨hbuf, hlen⟩

theorem Block.holds_congr {b b' : Block} (h : b.listener = b'.listener) (g : Frame) : b.holds g ↔ b'.holds g := by
  have hbuf : b.rx_buf = b'.rx_buf := congrArg ListenerRegs.rx_buf h
  have hlen : b.rx_len = b'.rx_len := congrArg ListenerRegs.rx_len h
  rw [Block.holds, Block.holds, hbuf, hlen]

theorem Block.holds.rx_len_toNat {b : Block} {g : Frame} (h : b.holds g) :
    b.rx_len.toNat = min g.length Config.rxLenSat := by
  obtain ⟨_, hlen⟩ := h
  rw [hlen, BitVec.toNat_ofNat]
  simp only [Config.rxLenSat]
  omega

theorem Block.holds.rxBytes {b : Block} {g : Frame} (h : b.holds g) (data : Byte) :
    b.rxBytes data = (g ++ [data]).take Config.rxCap := by
  have hcount := h.rx_len_toNat
  obtain ⟨hbuf, _⟩ := h
  rw [Block.rxBytes, hbuf, hcount]
  by_cases hcap : g.length < Config.rxCap
  · have hkeep : min g.length Config.rxLenSat < Config.rxCap := lt_of_le_of_lt (Nat.min_le_left _ _) hcap
    rw [if_pos hkeep, List.take_of_length_le hcap.le, List.take_of_length_le (by simpa using hcap)]
  · have hfull : ¬ min g.length Config.rxLenSat < Config.rxCap := by
      simp only [Config.rxLenSat, Config.rxCap] at hcap ⊢
      omega
    rw [if_neg hfull, List.take_append_of_le_length (Nat.le_of_not_lt hcap)]

theorem Block.holds.rxCount {b : Block} {g : Frame} (h : b.holds g) (data : Byte) :
    b.rxCount = min (g ++ [data]).length Config.rxLenSat := by
  rw [Block.rxCount, h.rx_len_toNat, List.length_append, List.length_singleton]
  omega

/-- A byte that does not end its frame is one byte more of it (R145). -/
theorem Block.holds.keepByte {b : Block} {g : Frame} (h : b.holds g) (data : Byte) :
    (b.noFrame.keepByte data).holds (g ++ [data]) :=
  ⟨h.rxBytes data, congrArg (BitVec.ofNat 5) (h.rxCount data)⟩

/-- The message a last byte completes shows as the whole frame's does (R112, R146). -/
theorem Block.holds.rxMessage {b : Block} {g : Frame} (h : b.holds g) (data : Byte) :
    SameShown (b.rxMessage data) (decode (g ++ [data])) := by
  rw [Block.rxMessage, h.rxBytes data, h.rxCount data]
  exact sameShown_decodeCapped _

/-- The edge of a frame's last byte receives the frame as decoded whole, on what the caller path leaves. -/
theorem Block.holds.edge_of_last {b : Block} {g : Frame} {I : Inputs} (h : b.holds g)
    (hv : I.rx_valid = true) (hl : I.rx_last = true) :
    (b.callerEdge I).listenerEdge I = (b.callerEdge I).receive (decode (g ++ [I.rx_data])) := by
  have h1 := (Block.holds_congr (b.callerEdge_listener I) g).mpr h
  simp only [Block.listenerEdge, hv, hl, if_true]
  exact Block.receive_congr _ (h1.rxMessage I.rx_data)

/-- The edge of any other byte of it keeps the byte. -/
theorem Block.holds.edge_of_byte {b : Block} {g : Frame} {I : Inputs} (h : b.holds g)
    (hv : I.rx_valid = true) (hl : I.rx_last = false) :
    ((b.callerEdge I).listenerEdge I).holds (g ++ [I.rx_data]) := by
  have h1 := (Block.holds_congr (b.callerEdge_listener I) g).mpr h
  simp only [Block.listenerEdge, hv, hl, if_true]
  exact h1.keepByte I.rx_data

/-! ### Runs over foreseen vectors -/

/-- A run over the script's first vectors leaves what R150's function leaves over them, and the rest of the script. -/
theorem run_of_script {s : State} {Is rest : List Inputs} (hs : s.script = Is ++ rest) :
    Host.Core.run Sys2Proof.core Is.length s =
      .next { block := Is.foldl refStep s.block, script := rest, edge := s.edge + Is.length } := by
  induction Is generalizing s with
  | nil =>
    rw [List.nil_append] at hs
    simp [run_zero, ← hs]
  | cons I Is ih =>
    have hstep := stepRefinesTheSpecFunction s
    rw [State.input_of_script hs, hs] at hstep
    rw [List.length_cons, run_next _ hstep, ih rfl]
    simp [Nat.add_assoc, Nat.add_comm 1]

theorem unreset_cons {I : Inputs} {Is : List Inputs} : unreset (I :: Is) ↔ I.rst = false ∧ unreset Is :=
  List.forall_mem_cons

/-! ### A frame presented byte by byte (R145, R146) -/

/-- A frame takes one vector for each byte. -/
theorem length_of_presents {f : Frame} {Is : List Inputs} (h : presents f Is) : Is.length = f.length := by
  induction f generalizing Is with
  | nil => exact congrArg List.length h
  | cons data f ih =>
    obtain ⟨I, Js, rfl, _, _, _, hrest⟩ := h
    exact congrArg (· + 1) (ih hrest)

/-- With `g` in the inbound buffer, the bytes `f` that end the frame have it received whole. -/
theorem Block.holds.foldl_presents {b : Block} {g f : Frame} {Is : List Inputs} (hb : b.holds g) (hf : f ≠ [])
    (hu : unreset Is) (hp : presents f Is) :
    ∃ c : Block, Is.foldl refStep b = c.receive (decode (g ++ f)) := by
  induction f generalizing b g Is with
  | nil => exact absurd rfl hf
  | cons data f ih =>
    obtain ⟨I, Js, rfl, hv, rfl, hl, hrest⟩ := hp
    obtain ⟨hr, hu⟩ := unreset_cons.mp hu
    rw [List.foldl_cons, refStep_of_running hr]
    cases f with
    | nil =>
      obtain rfl : Js = [] := hrest
      exact ⟨_, hb.edge_of_last hv hl⟩
    | cons data' f =>
      have hc := hb.edge_of_byte hv hl
      rw [List.append_cons]
      exact ih hc (List.cons_ne_nil _ _) hu hrest

/-- Settles O47: the frame is received whole, and a received Reply is in the table with `wake` up. -/
theorem presentedFrameIsDecodedWhole : Obligations.PresentedFrameIsDecodedWhole := by
  intro s f Is rest hf hbuf hlen hscript hu hp
  obtain ⟨c, hc⟩ := (Block.holds_nil hbuf hlen).foldl_presents hf hu hp
  rw [List.nil_append] at hc
  refine ⟨_, length_of_presents hp ▸ run_of_script hscript, ?_, fun ch p x hm => ?_⟩
  · rw [hc]
    exact c.receive_listener _
  · rw [hc, hm]
    exact ⟨by simp, c.receive_reply_wake ch p x⟩

/-! ### An instruction presented to the ports (log 1, log 3) -/

@[simp] theorem Block.receive_dec_valid (b : Block) (m : Msg) : (b.receive m).dec_valid = true :=
  congrArg ListenerRegs.dec_valid (b.receive_listener m)

theorem Block.set_dec_valid {b : Block} {v : Bool} (h : b.dec_valid = v) : { b with dec_valid := v } = b := by
  rw [← h]

/-- In IDLE, without a command offered, the caller path rests (R130). -/
theorem Block.callerEdge_of_no_command {b : Block} {I : Inputs} (hf : b.fsm = .idle) (hv : I.cmd_valid = false) :
    b.callerEdge I = b := by
  simp [Block.callerEdge, hf, hv]

/-- In IDLE an offered command is accepted (R130). -/
theorem Block.callerEdge_of_command {b : Block} {I : Inputs} (hf : b.fsm = .idle) (hv : I.cmd_valid = true) :
    b.callerEdge I = b.command I.commandWord := by
  simp [Block.callerEdge, hf, hv]

/-- A presented frame is its bytes but the last in the inbound buffer, and the last on the RX port. -/
theorem State.present_frame (s : State) (front : Frame) (last : Byte) :
    ∃ b : Block, s.present (.frame (front ++ [last])) =
        { s with block := b, script := Inputs.receiving last true :: s.script.tail } ∧
      b.holds front ∧ b.fsm = s.block.fsm := by
  refine ⟨{ s.block with rx_buf := front.take Config.rxCap,
                         rx_len := BitVec.ofNat 5 (min front.length Config.rxLenSat) }, ?_, ⟨rfl, rfl⟩, rfl⟩
  simp [State.present]

/-- The step over a presented frame receives the message it decodes to. -/
theorem step_present_frame {s : State} {f : Frame} (hidle : s.block.fsm = .idle) (hf : f ≠ []) :
    step (s.present (.frame f)) = .next {
      block := (s.present (.frame f)).block.receive (decode f), script := s.script.tail, edge := s.edge + 1 } := by
  obtain ⟨front, last, rfl⟩ := List.eq_nil_or_concat' f |>.resolve_left hf
  obtain ⟨b, hs, hholds, hfsm⟩ := s.present_frame front last
  rw [hs, step_of_script rfl rfl]
  have hedge := hholds.edge_of_last (I := Inputs.receiving last true) rfl rfl
  rw [Block.callerEdge_of_no_command (hfsm.trans hidle) rfl] at hedge ⊢
  rw [hedge]
  rfl

/-- The step over a presented command accepts it; no frame is complete. -/
theorem step_present_command (s : State) (w : CommandWord) :
    step (s.present (.command w)) = .next {
      block := ((s.present (.command w)).block.command w).noFrame, script := s.script.tail, edge := s.edge + 1 } := by
  rw [State.present, step_of_script rfl rfl, Block.callerEdge_of_command rfl rfl]
  rfl

/-- Settles O15: what the ports decode is the instruction (R113), and the step over either packet runs it. -/
theorem presentedInstructionRunsNext : Obligations.PresentedInstructionRunsNext := by
  intro s fl i hidle hwf hne
  have hdecode := decodePacket_encode fl i hwf
  cases hp : encode fl i with
  | frame f =>
    rw [hp] at hdecode
    obtain rfl : (decode f).toInstr = i := hdecode
    have hf : f ≠ [] := by
      rintro rfl
      exact hne rfl
    refine ⟨_, exec_toInstr (decode f) _, ?_⟩
    rw [step_present_frame hidle hf, State.withBlock_block, Block.set_dec_valid (Block.receive_dec_valid _ _)]
  | command w =>
    rw [hp] at hdecode
    obtain rfl : decodeCommand w = i := hdecode
    exact ⟨_, exec_decodeCommand w _ rfl, step_present_command s w⟩

end Sys2Proof.Machine
end

section
/-! The commands: decoded, executed in IDLE and outside it (R130 to R134), and accepted at an edge; and how the step runs
what its ports decode to (log 1, log 4). -/

namespace Sys2Proof.Machine

/-- Settles O1: each word is decoded as it stands. -/
theorem specExamplesDecode : Obligations.SpecExamplesDecode := by
  unfold Obligations.SpecExamplesDecode
  decide

/-! ### A command as an instruction -/

/-- Settles O11: each of the three commands is decoded from its word, and its acceptance only latches. -/
theorem idleCommandsExecute : Obligations.IdleCommandsExecute := fun s a c v t hidle =>
  ⟨exec_decodeCommand ⟨0b00, a, c, v, t⟩ s hidle, exec_decodeCommand ⟨0b01, a, c, v, t⟩ s hidle,
    exec_decodeCommand ⟨0b11, a, c, v, t⟩ s hidle⟩

/-- Settles O12: acceptance, then the query-start actions, by the laws of one table clear. -/
theorem idleQueryCommandExecutes : Obligations.IdleQueryCommandExecutes := by
  intro s a c v t hidle
  refine ⟨_, exec_decodeCommand ⟨0b10, a, c, v, t⟩ s hidle, tblRead_tblClear_same _ _,
    fun k hk => tblRead_tblClear_other _ hk, ?_⟩
  simp [State.withBlock, Block.command, opOfBits, Block.accept, Block.discard, wakeAfter]

/-- Outside IDLE a command is not accepted (R130). -/
theorem whenIdle_of_busy {s : State} (h : s.block.fsm ≠ .idle) (b : Block) : whenIdle s b = .next s := by
  unfold whenIdle
  split
  · next hidle => exact absurd hidle h
  · rfl
  · rfl
  · rfl

/-- Settles O13: each of the four commands is executed by `whenIdle`. -/
theorem busyBlockLeavesCommandOffered : Obligations.BusyBlockLeavesCommandOffered := fun _ _ _ _ _ h =>
  ⟨whenIdle_of_busy h _, whenIdle_of_busy h _, whenIdle_of_busy h _, whenIdle_of_busy h _⟩

theorem whenIdle_answers (s : State) (b : Block) : ∃ t, whenIdle s b = .next t := by
  cases h : s.block.fsm with
  | idle => exact ⟨_, by rw [whenIdle, h]⟩
  | send => exact ⟨_, whenIdle_of_busy (by simp [h]) b⟩
  | wait => exact ⟨_, whenIdle_of_busy (by simp [h]) b⟩
  | resp => exact ⟨_, whenIdle_of_busy (by simp [h]) b⟩

/-- No meaning stops: a frame's observes, a command's is `whenIdle` (R170). -/
theorem exec_answers (i : Instr) (s : State) : ∃ t, exec i s = .next t := by
  cases i with
  | keepalive => exact ⟨_, rfl⟩
  | changeParameter ch p x => exact ⟨_, rfl⟩
  | queryParameter ch p => exact ⟨_, rfl⟩
  | replyParameter ch p x => exact ⟨_, rfl⟩
  | unknown raw => exact ⟨_, rfl⟩
  | cmdKeepalive a c v t => exact whenIdle_answers s _
  | cmdChange a c v t => exact whenIdle_answers s _
  | cmdQuery a c v t => exact whenIdle_answers s _
  | cmdSetConfirm a c v t => exact whenIdle_answers s _

/-- Settles O17: the step is R150's function, which is total, and no meaning stops. -/
theorem nothingTrapsOrStops : Obligations.NothingTrapsOrStops :=
  ⟨fun s => ⟨_, stepRefinesTheSpecFunction s⟩, exec_answers⟩

/-! ### The step runs what its ports decode to -/

/-- Settles O14: the caller path's edge is the command's meaning, the listener path's is the frame's, in that order. -/
theorem stepRunsTheDecodedInstruction : Obligations.StepRunsTheDecodedInstruction := by
  intro s u t hr hidle
  refine ⟨fun hv hrx h => ?_, fun hv hrx hl h => ?_, fun hv hrx hl hu h => ?_⟩
  · rw [exec_decodeCommand _ _ hidle] at h
    injection h with h
    rw [step_of_no_byte hr hrx, Block.callerEdge_of_command hidle hv, ← h]
    rfl
  · rw [exec_toInstr] at h
    injection h with h
    rw [step_of_frame hr hrx hl, Block.callerEdge_of_no_command hidle hv, ← h]
    rfl
  · rw [exec_decodeCommand _ _ hidle] at hu
    injection hu with hu
    rw [exec_toInstr, ← hu] at h
    injection h with h
    rw [step_of_frame hr hrx hl, Block.callerEdge_of_command hidle hv, ← h]
    rfl

/-! ### Acceptance at an edge (R130) -/

/-- The selector of QUERY is `10` alone (R83). -/
theorem opOfBits_eq_query_iff (o : BitVec 2) : opOfBits o = .query ↔ o = 0b10#2 := by
  revert o
  decide

/-- The frame an accepted operation starts with (R131 to R134). -/
def firstFrame : Op → FrameSel
  | .keepalive => .ka
  | .change => .chg
  | .setConfirm => .chg
  | .query => .qry

/-- What acceptance latches, on the caller path's elements (R130). -/
theorem Block.command_caller (b : Block) (w : CommandWord) :
    (b.command w).caller = { b.caller with
      op := opOfBits w.op, a := w.addr, c := w.channel, v := w.value, t := w.timeout, idx := 0, fsm := .send,
      frame := firstFrame (opOfBits w.op) } := by
  unfold Block.command
  cases opOfBits w.op <;> rfl

/-- QUERY's acceptance clears its key and `wake` (R137). -/
theorem Block.command_query_shared (b : Block) {w : CommandWord} (h : opOfBits w.op = .query) :
    (b.command w).table = tblClear b.table (w.channel, w.addr) ∧ (b.command w).wake = false := by
  simp [Block.command, h]

/-- Every other command's acceptance clears nothing (R131, R132, R134). -/
theorem Block.command_other_shared (b : Block) {w : CommandWord} (h : opOfBits w.op ≠ .query) :
    (b.command w).table = b.table ∧ (b.command w).wake = b.wake := by
  unfold Block.command
  cases ho : opOfBits w.op with
  | query => exact absurd ho h
  | keepalive => exact ⟨rfl, rfl⟩
  | change => exact ⟨rfl, rfl⟩
  | setConfirm => exact ⟨rfl, rfl⟩

/-- Settles O19: an edge in IDLE rests or accepts, and QUERY's acceptance alone clears anything. -/
theorem acceptanceEdge : Obligations.AcceptanceEdge := by
  intro s hr hidle
  cases hv : s.input.cmd_valid with
  | false =>
    obtain ⟨t, hstep, hcaller, hcommits⟩ :=
      exists_step_of_kept hr (Block.callerEdge_of_no_command hidle hv) rfl rfl
    exact ⟨t, hstep, fun _ => ⟨hcaller, hcommits⟩, nofun⟩
  | true =>
    have hcall := Block.callerEdge_of_command hidle hv
    have hlatched := s.block.command_caller s.input.commandWord
    by_cases hq : s.input.cmd_op = 0b10#2
    · obtain ⟨htable, hwake⟩ :=
        s.block.command_query_shared (w := s.input.commandWord) ((opOfBits_eq_query_iff _).mpr hq)
      obtain ⟨t, hstep, hcaller, hcommits⟩ := exists_step_of_discarded hr hcall htable hwake
      exact ⟨t, hstep, nofun, fun _ => ⟨hcaller.trans hlatched, fun _ => hcommits, fun hne => absurd hq hne⟩⟩
    · obtain ⟨htable, hwake⟩ :=
        s.block.command_other_shared (w := s.input.commandWord) (mt (opOfBits_eq_query_iff _).mp hq)
      obtain ⟨t, hstep, hcaller, hcommits⟩ := exists_step_of_kept hr hcall htable hwake
      exact ⟨t, hstep, nofun, fun _ => ⟨hcaller.trans hlatched, fun he => absurd he hq, fun _ => hcommits⟩⟩

/-! ### Outside IDLE (R130) -/

/-- A busy caller path does not read the command port. -/
theorem Block.callerEdge_sameButCommand {b : Block} {I J : Inputs} (hbusy : b.fsm ≠ .idle)
    (h : I.sameButCommand J) : b.callerEdge J = b.callerEdge I := by
  rw [h]
  unfold Block.callerEdge
  cases hf : b.fsm with
  | idle => exact absurd hf hbusy
  | send => rfl
  | wait => rfl
  | resp => rfl

/-- The listener path never does. -/
theorem Block.listenerEdge_sameButCommand (b : Block) {I J : Inputs} (h : I.sameButCommand J) :
    b.listenerEdge J = b.listenerEdge I := by
  rw [h]
  rfl

/-- Settles O20: neither path of a busy block reads the command port. -/
theorem commandPortIgnoredWhileBusy : Obligations.CommandPortIgnoredWhileBusy := by
  intro s s' t t' hblock hbusy hin h h'
  have hrst : s'.input.rst = s.input.rst := by rw [hin]
  rw [step_block h, step_block h', ← hblock]
  refine ⟨?_, by simp [Block.outputs, hbusy]⟩
  cases hr : s.input.rst with
  | true => rw [refStep_of_rst _ hr, refStep_of_rst _ (hrst.trans hr)]
  | false =>
    rw [refStep_of_running hr, refStep_of_running (hrst.trans hr), Block.callerEdge_sameButCommand hbusy hin,
      Block.listenerEdge_sameButCommand _ hin]

end Sys2Proof.Machine
end

section
/-! Rules over every edge: who writes and who removes an entry (R52, R53), who raises and who clears `wake` (R57), who
writes the operands and the results (R22, R23, R27), and what the listener path reads (R179). Each is read off the caller
path's case list and the one thing the listener path adds to it. -/

namespace Sys2Proof.Machine

/-! ### The table (R52, R53) -/

/-- A removal by the caller path: an accepted QUERY, SET_CONFIRM's last Change byte, or the pop (R137, R142). -/
inductive Removal (b b1 : Block) (I : Inputs) : Key → Prop where
  | query (hf : b.fsm = .idle) (hv : I.cmd_valid = true) (ho : I.cmd_op = 0b10#2) :
      Removal b b1 I (I.cmd_channel, I.cmd_addr)
  | confirm (hf : b.fsm = .send) (hs : b.frame = .chg) (ho : b.op ≠ .change) (hv : I.tx_ready = true)
      (hi : b.idx.toNat = 18) : Removal b b1 I (b.c, b.a)
  | pop (hf : b.fsm = .wait) (hw : b.wake = true) (hf1 : b1.fsm = .resp)
      (hx : some b1.rvalue = tblRead b.table (b.c, b.a)) : Removal b b1 I (b.c, b.a)

/-- The caller path leaves the table, or makes one removal. -/
theorem CallerCase.removal {b b1 : Block} {I : Inputs} (h : CallerCase b I b1) :
    b1.table = b.table ∨ ∃ k, b1.table = tblClear b.table k ∧ Removal b b1 I k := by
  cases h with
  | query hf hv ho => exact .inr ⟨_, rfl, .query hf hv ((opOfBits_eq_query_iff _).mp ho)⟩
  | confirm hf hv hi hs ho =>
    rw [hs] at hi
    exact .inr ⟨_, rfl, .confirm hf hs ho hv hi⟩
  | found x hf hw hx => exact .inr ⟨_, rfl, .pop hf hw rfl hx.symm⟩
  | _ => exact .inl rfl

/-- The caller path writes no entry: what it leaves at a key was there. -/
theorem CallerCase.entry_of_entry {b b1 : Block} {I : Inputs} (h : CallerCase b I b1) {k : Key} {x : Value}
    (hx : tblRead b1.table k = some x) : tblRead b.table k = some x := by
  rcases h.table_eq_or_clear with ht | ⟨k', ht⟩
  · rwa [ht] at hx
  · by_cases hk : k = k'
    · simp [ht, hk] at hx
    · rwa [ht, tblRead_tblClear_other _ hk] at hx

/-- An entry that the caller path takes away is removed in one of the three ways. -/
theorem CallerCase.removal_of_gone {b b1 : Block} {I : Inputs} (h : CallerCase b I b1) {k : Key}
    (h1 : tblRead b1.table k = none) (hb : tblRead b.table k ≠ none) : Removal b b1 I k := by
  rcases h.removal with ht | ⟨k', ht, hr⟩
  · exact absurd (ht ▸ h1) hb
  · by_cases hk : k = k'
    · exact hk ▸ hr
    · rw [ht, tblRead_tblClear_other _ hk] at h1
      exact absurd h1 hb

/-- The entry at a key over the listener path's edge: a completed Reply's value, or as before (R147). -/
theorem Block.listenerEdge_entry (b : Block) {I : Inputs} (hr : I.rst = false) (k : Key) :
    (∃ x, b.completed I = some (.replyParameter k.1 k.2 x) ∧ tblRead (b.listenerEdge I).table k = some x) ∨
      (¬ b.repliesFor I k ∧ tblRead (b.listenerEdge I).table k = tblRead b.table k) := by
  obtain ⟨htable, _⟩ := b.listenerEdge_shared hr
  rw [htable]
  by_cases h : b.repliesFor I k
  · obtain ⟨x, hx⟩ := h
    exact .inl ⟨x, hx, by simp [entryAfter, Block.insertAsked_eq_some.mpr hx]⟩
  · exact .inr ⟨h, entryAfter_of_ne (Block.insertAsked_ne_of_not_repliesFor h)⟩

/-- What completes at an edge is the same on the sampled block and on what the caller path leaves. -/
theorem CallerCase.completed_eq {b b1 : Block} {I : Inputs} (h : CallerCase b I b1) :
    b1.completed I = b.completed I := by
  cases h <;> rfl

/-- Settles O31: only the listener path writes an entry, and only the caller path removes one. -/
theorem soleWriterAndSoleRemover : Obligations.SoleWriterAndSoleRemover := by
  intro s t k hr h
  obtain ⟨b1, hcase, ht⟩ := step_block_of_running hr h
  have hcaller := b1.listenerEdge_caller s.input
  rw [ht]
  rcases b1.listenerEdge_entry hr k with ⟨y, hy, hentry⟩ | ⟨_, hentry⟩
  · rw [hentry]
    refine ⟨fun x hx _ => ?_, nofun⟩
    rw [← hcase.completed_eq, hy, Option.some.inj hx]
  · rw [hentry]
    refine ⟨fun x hx hne => absurd (hcase.entry_of_entry hx) hne, fun hnone hsome => ?_⟩
    cases hcase.removal_of_gone hnone hsome with
    | query hf hv ho => exact .inl ⟨hf, hv, ho, rfl⟩
    | confirm hf hs ho hv hi => exact .inr (.inl ⟨hf, hs, ho, hv, hi, rfl⟩)
    | pop hf hw hf1 hx =>
      have hresp : (b1.listenerEdge s.input).fsm = .resp := (congrArg CallerRegs.fsm hcaller).trans hf1
      have hvalue : (b1.listenerEdge s.input).rvalue = b1.rvalue := congrArg CallerRegs.rvalue hcaller
      exact .inr (.inr ⟨hf, hw, rfl, hresp, hvalue ▸ hx⟩)

/-! ### `wake` (R57) -/

/-- The caller path clears `wake` by the query-start actions and by examining it in WAIT, the expiry apart (R137, R139,
R141, R142). -/
theorem CallerCase.wake_iff {b b1 : Block} {I : Inputs} (h : CallerCase b I b1) :
    b1.wake = true ↔ b.wake = true ∧
      ¬ (b.fsm = .idle ∧ I.cmd_valid = true ∧ I.cmd_op = 0b10#2) ∧
      ¬ (b.fsm = .send ∧ I.tx_ready = true ∧ b.frame = .chg ∧ b.op ≠ .change ∧ b.idx.toNat = 18) ∧
      ¬ (b.fsm = .wait ∧ (tblRead b.table (b.c, b.a) ≠ none ∨ b.timer ≠ 0)) := by
  have hchg : frameLen .chg - 1 = 18 := rfl
  cases h with
  | rest hf hv => simp [hf, hv]
  | plain o sel hf hv ho hs =>
    have hq : I.cmd_op ≠ 0b10#2 := by
      rw [ne_eq, ← opOfBits_eq_query_iff, ho]
      rintro rfl
      simp at hs
    simp [hf, hq]
  | query hf hv ho => simp [hf, hv, (opOfBits_eq_query_iff _).mp ho]
  | stall hf hv => simp [hf, hv]
  | byte hf hv hi =>
    have hlast : b.frame = .chg → b.idx.toNat ≠ 18 := fun hs => by rwa [hs, hchg] at hi
    simp only [Block.nextByte_wake, hf]
    tauto
  | sent hf hv hi hs =>
    rcases hs with hs | ⟨hs, ho⟩
    · simp [hf, hs]
    · simp [hf, ho]
  | confirm hf hv hi hs ho =>
    rw [hs, hchg] at hi
    simp [hf, hv, hi, hs, ho]
  | await hf hv hi hs => simp [hf, hs]
  | found x hf hw hx => simp [hf, hx]
  | expired hf hx ht =>
    simp only [Block.complete_wake, hf, ht]
    tauto
  | waiting hf hx ht => simp [hf, show b.timer ≠ 0#32 from ht]
  | held hf => simp [hf]
  | taken hf => simp [hf]

/-- The listener path asks for an insert exactly where a Reply completes (R147). -/
theorem Block.insertAsked_isSome_iff (b : Block) (I : Inputs) :
    (b.insertAsked I).isSome ↔ ∃ ch p x, b.completed I = some (.replyParameter ch p x) := by
  rw [Option.isSome_iff_exists]
  constructor
  · rintro ⟨⟨⟨ch, p⟩, x⟩, h⟩
    exact ⟨ch, p, x, Block.insertAsked_eq_some.mp h⟩
  · rintro ⟨ch, p, x, h⟩
    exact ⟨((ch, p), x), Block.insertAsked_eq_some.mpr h⟩

/-- Settles O32: the listener path raises `wake` with an insert, over what the caller path leaves of it. -/
theorem wakeSetAndClearRule : Obligations.WakeSetAndClearRule := by
  intro s t hr h
  obtain ⟨b1, hcase, ht⟩ := step_block_of_running hr h
  obtain ⟨_, hwake⟩ := b1.listenerEdge_shared hr
  rw [ht, hwake, Bool.or_eq_true, hcase.wake_iff, Block.insertAsked_isSome_iff, hcase.completed_eq, or_comm]

/-! ### Operands and results (R22, R23, R27) -/

/-- The operands are latched at an acceptance alone. -/
theorem CallerCase.operands_held {b b1 : Block} {I : Inputs} (h : CallerCase b I b1)
    (hno : ¬ (b.fsm = .idle ∧ I.cmd_valid = true)) :
    b1.op = b.op ∧ b1.a = b.a ∧ b1.c = b.c ∧ b1.v = b.v ∧ b1.t = b.t := by
  cases h with
  | plain o sel hf hv => exact absurd ⟨hf, hv⟩ hno
  | query hf hv => exact absurd ⟨hf, hv⟩ hno
  | _ => exact ⟨rfl, rfl, rfl, rfl, rfl⟩

/-- The result is written on entering RESP alone. -/
theorem CallerCase.result_held {b b1 : Block} {I : Inputs} (h : CallerCase b I b1)
    (hno : ¬ (b.fsm ≠ .resp ∧ b1.fsm = .resp)) : b1.status = b.status ∧ b1.rvalue = b.rvalue := by
  cases h with
  | sent hf => exact absurd ⟨by simp [hf], rfl⟩ hno
  | found x hf => exact absurd ⟨by simp [hf], rfl⟩ hno
  | expired hf => exact absurd ⟨by simp [hf], rfl⟩ hno
  | _ => exact ⟨rfl, rfl⟩

/-- Settles O33: the caller path writes the operands and the results only there, and the listener path never. -/
theorem operandsAndResultsAreHeld : Obligations.OperandsAndResultsAreHeld := by
  intro s t hr h
  obtain ⟨b1, hcase, ht⟩ := step_block_of_running hr h
  obtain ⟨wake, table, rx_buf, rx_len, dec_valid, dec_kind, dec_channel, dec_param, dec_value, he⟩ :=
    Block.exists_eq_with_of_caller (b1.listenerEdge_caller s.input).symm
  rw [ht, he]
  refine ⟨fun hno => hcase.operands_held fun hacc => ?_, hcase.result_held⟩
  simp [Block.cmdAccepted, Block.outputs, hr, hacc] at hno

/-! ### What the listener path reads (R179) -/

/-- Of the vector the listener path reads the RX port alone. -/
theorem Block.listenerEdge_rx_congr (b : Block) {I J : Inputs} (hv : I.rx_valid = J.rx_valid)
    (hd : I.rx_data = J.rx_data) (hl : I.rx_last = J.rx_last) : b.listenerEdge I = b.listenerEdge J := by
  rw [Block.listenerEdge, Block.listenerEdge, hv, hd, hl]

/-- Settles O30: the listener path's edge is a function of its own elements and the RX port; a reset is the same for
both. -/
theorem listenerReadsOnlyItsPort : Obligations.ListenerReadsOnlyItsPort := by
  intro s s' t t' hlistener hrst hv hd hl h h'
  rw [step_block h, step_block h']
  cases hr : s.input.rst with
  | true => rw [refStep_of_rst _ hr, refStep_of_rst _ (hrst ▸ hr)]
  | false =>
    have hkept : (s.block.callerEdge s.input).listener = (s'.block.callerEdge s'.input).listener := by
      rw [Block.callerEdge_listener, Block.callerEdge_listener, hlistener]
    rw [refStep_of_running hr, refStep_of_running (hrst ▸ hr), Block.listenerEdge_rx_congr _ hv hd hl]
    exact Block.listenerEdge_listener_congr hkept s'.input

/-! ### The response port (R171) -/

/-- Settles O36: the rows of R171, status by status. -/
theorem resultCodesOnTheResponsePort : Obligations.ResultCodesOnTheResponsePort := by
  intro b rst
  refine ⟨rfl, ?_⟩
  cases hs : b.status with
  | sent => simp [Block.outputs, hs, Status.code, Status.found]
  | value => simp [Block.outputs, hs, Status.code, Status.found]
  | timeout => simp [Block.outputs, hs, Status.code, Status.found]
  | confirmed => simp [Block.outputs, hs, Status.code, Status.found]
  | mismatch => simp [Block.outputs, hs, Status.code, Status.found]

end Sys2Proof.Machine
end

section
/-! Waits over foreseen vectors: one that lasts its budget (R139 to R141) and one that its Reply ends (R142, R143). A run
is the fold of R150's function over its vectors, and what happens to the table along it is said once: which edges keep
every entry, and which clear one. -/

namespace Sys2Proof.Machine

/-! ### Entries along a run -/

theorem quietFor_append {k : Key} {b : Block} {Is Js : List Inputs} :
    quietFor k b (Is ++ Js) ↔ quietFor k b Is ∧ quietFor k (Is.foldl refStep b) Js := by
  induction Is generalizing b with
  | nil => simp [quietFor]
  | cons I Is ih => simp [quietFor, ih, and_assoc]

theorem unreset_append {Is Js : List Inputs} : unreset (Is ++ Js) ↔ unreset Is ∧ unreset Js :=
  List.forall_mem_append

/-- Over these vectors no entry goes away, and one whose key gets no Reply stays as it is. -/
def keepsEntries (b : Block) (Is : List Inputs) : Prop :=
  ∀ k, (tblRead b.table k ≠ none → tblRead (Is.foldl refStep b).table k ≠ none) ∧
    (quietFor k b Is → tblRead (Is.foldl refStep b).table k = tblRead b.table k)

theorem keepsEntries_nil (b : Block) : keepsEntries b [] := fun _ => ⟨id, fun _ => rfl⟩

theorem keepsEntries_append {b : Block} {Is Js : List Inputs} (hI : keepsEntries b Is)
    (hJ : keepsEntries (Is.foldl refStep b) Js) : keepsEntries b (Is ++ Js) := by
  intro k
  obtain ⟨hstayI, hsameI⟩ := hI k
  obtain ⟨hstayJ, hsameJ⟩ := hJ k
  rw [List.foldl_append, quietFor_append]
  exact ⟨fun h => hstayJ (hstayI h), fun ⟨hqI, hqJ⟩ => (hsameJ hqJ).trans (hsameI hqI)⟩

theorem keepsEntries_cons {b : Block} {I : Inputs} {Is : List Inputs} (hI : keepsEntries b [I])
    (hIs : keepsEntries (refStep b I) Is) : keepsEntries b (I :: Is) :=
  keepsEntries_append hI hIs

/-- The entry at a key over one edge: a completed Reply's value, or what the caller path leaves there. -/
theorem refStep_entry (b : Block) {I : Inputs} (hr : I.rst = false) (k : Key) :
    (∃ x, b.completed I = some (.replyParameter k.1 k.2 x) ∧ tblRead (refStep b I).table k = some x) ∨
      (¬ b.repliesFor I k ∧ tblRead (refStep b I).table k = tblRead (b.callerEdge I).table k) := by
  have h := (b.callerEdge I).listenerEdge_entry hr k
  rwa [(b.callerEdge_case I).completed_eq, Block.repliesFor_congr (b.callerEdge_listener I),
    ← refStep_of_running hr] at h

/-- An edge at which the caller path leaves the table. -/
theorem keepsEntries_of_table {b : Block} {I : Inputs} (hr : I.rst = false)
    (ht : (b.callerEdge I).table = b.table) : keepsEntries b [I] := by
  intro k
  rw [List.foldl_cons, List.foldl_nil]
  rcases refStep_entry b hr k with ⟨x, hx, he⟩ | ⟨_, he⟩
  · exact ⟨fun _ => by simp [he], fun ⟨hno, _⟩ => absurd ⟨x, hx⟩ hno⟩
  · rw [he, ht]
    exact ⟨id, fun _ => rfl⟩

/-- An edge at which the caller path clears a key that no Reply fills. -/
theorem refStep_absent_of_clear {b : Block} {I : Inputs} {k : Key} (hr : I.rst = false)
    (ht : (b.callerEdge I).table = tblClear b.table k) (hno : ¬ b.repliesFor I k) :
    tblRead (refStep b I).table k = none := by
  rcases refStep_entry b hr k with ⟨x, hx, _⟩ | ⟨_, he⟩
  · exact absurd ⟨x, hx⟩ hno
  · rw [he, ht, tblRead_tblClear_same]

theorem refStep_caller {b : Block} {I : Inputs} (hr : I.rst = false) :
    (refStep b I).caller = (b.callerEdge I).caller := by
  rw [refStep_of_running hr, Block.listenerEdge_caller]

/-- The key of a block whose caller elements are known. -/
theorem Block.key_of_caller {b : Block} {r : CallerRegs} (h : b.caller = r) : b.key = (r.c, r.a) :=
  h ▸ rfl

/-! ### WAIT (R138 to R141) -/

/-- With nothing at its key and budget left, a WAIT goes on (R139, R140). -/
theorem Block.callerEdge_of_waiting {b : Block} (I : Inputs) (hf : b.fsm = .wait)
    (hx : tblRead b.table b.key = none) (ht : b.timer ≠ 0) :
    b.callerEdge I = { b with wake := false, timer := if I.tick then b.timer - 1 else b.timer } := by
  rw [Block.callerEdge_of_wait I hf]
  exact Block.waitEdge_of_waiting _ (Block.found_eq_none_of_or (.inr hx)) ht

/-- The budget after an edge that keeps waiting (R140). -/
theorem toNat_timer_after {timer : Ticks} (ht : timer ≠ 0) (tick : Bool) :
    (if tick then timer - 1 else timer).toNat + (if tick then 1 else 0) = timer.toNat := by
  cases tick with
  | false => simp
  | true =>
    simp only [if_true]
    bv_omega

theorem ticksIn_cons (I : Inputs) (Is : List Inputs) :
    ticksIn (I :: Is) = ticksIn Is + if I.tick then 1 else 0 := by
  simp [ticksIn, List.countP_cons]

/-- One edge of a wait with nothing at its key and budget left: the timer takes the tick. -/
theorem refStep_of_waiting {b : Block} {I : Inputs} (hr : I.rst = false) (hf : b.fsm = .wait)
    (hx : tblRead b.table b.key = none) (ht : b.timer ≠ 0) :
    (refStep b I).caller = { b.caller with timer := (refStep b I).timer } ∧
      (refStep b I).timer.toNat + (if I.tick then 1 else 0) = b.timer.toNat ∧ keepsEntries b [I] := by
  have hedge := Block.callerEdge_of_waiting I hf hx ht
  have hcaller : (refStep b I).caller = { b.caller with timer := if I.tick then b.timer - 1 else b.timer } := by
    rw [refStep_caller hr, hedge]
    rfl
  have htimer : (refStep b I).timer = if I.tick then b.timer - 1 else b.timer := congrArg CallerRegs.timer hcaller
  rw [htimer]
  exact ⟨hcaller, toNat_timer_after ht I.tick, keepsEntries_of_table hr (by rw [hedge])⟩

/-- A wait with nothing at its key, over vectors that bring nothing there and leave the last the last tick to take: it
goes on and the timer has lost the ticks. -/
theorem foldl_wait {b : Block} {Is : List Inputs} (hf : b.fsm = .wait) (hx : tblRead b.table b.key = none)
    (hu : unreset Is) (hq : quietFor b.key b Is) (hbudget : Is = [] ∨ ticksIn Is.dropLast < b.timer.toNat) :
    (Is.foldl refStep b).caller = { b.caller with timer := (Is.foldl refStep b).timer } ∧
      (Is.foldl refStep b).timer.toNat + ticksIn Is = b.timer.toNat ∧ keepsEntries b Is := by
  induction Is generalizing b with
  | nil => exact ⟨rfl, rfl, keepsEntries_nil b⟩
  | cons I Is ih =>
    obtain ⟨hr, hu⟩ := unreset_cons.mp hu
    obtain ⟨hno, hq⟩ := hq
    have hleft : ticksIn (I :: Is).dropLast < b.timer.toNat := hbudget.resolve_left (List.cons_ne_nil _ _)
    have ht : b.timer ≠ 0 := by
      intro h0
      simp [h0] at hleft
    obtain ⟨hcaller, hcount, hkeeps⟩ := refStep_of_waiting hr hf hx ht
    have hkey : (refStep b I).key = b.key := Block.key_of_caller hcaller
    obtain ⟨_, hsame⟩ := hkeeps b.key
    have hx' : tblRead (refStep b I).table (refStep b I).key = none := hkey ▸ (hsame ⟨hno, trivial⟩).trans hx
    have hbudget' : Is = [] ∨ ticksIn Is.dropLast < (refStep b I).timer.toNat := by
      cases Is with
      | nil => exact .inl rfl
      | cons J Is =>
        rw [List.dropLast_cons_cons, ticksIn_cons] at hleft
        exact .inr (by omega)
    obtain ⟨hcaller', htimer', hkeeps'⟩ :=
      ih ((congrArg CallerRegs.fsm hcaller).trans hf) hx' hu (hkey ▸ hq) hbudget'
    rw [List.foldl_cons, ticksIn_cons]
    exact ⟨by rw [hcaller', hcaller], by omega, keepsEntries_cons hkeeps hkeeps'⟩

/-- A wait with nothing at its key and its budget spent completes with TIMEOUT (R141). -/
theorem refStep_of_expired {b : Block} {I : Inputs} (hr : I.rst = false) (hf : b.fsm = .wait)
    (hx : tblRead b.table b.key = none) (ht : b.timer = 0) :
    (refStep b I).caller = { b.caller with fsm := .resp, status := .timeout, rvalue := 0 } ∧ keepsEntries b [I] := by
  have hedge : b.callerEdge I = b.complete .timeout 0 := by
    rw [Block.callerEdge_of_wait I hf]
    exact Block.waitEdge_of_expired _ (Block.found_eq_none_of_or (.inr hx)) ht
  exact ⟨by rw [refStep_caller hr, hedge, Block.complete_caller],
    keepsEntries_of_table hr (by rw [hedge, Block.complete_table])⟩

/-- Settles O41: the wait goes on over the vectors, and the edge after them finds the budget spent. -/
theorem waitLastsExactlyItsBudget : Obligations.WaitLastsExactlyItsBudget := by
  intro s Is rest hf hx hscript hu hq hbudget
  obtain ⟨hcaller, htimer, hkeeps⟩ := foldl_wait hf hx hu hq hbudget
  obtain ⟨_, hsame⟩ := hkeeps s.block.key
  have hfsm : (Is.foldl refStep s.block).fsm = .wait := (congrArg CallerRegs.fsm hcaller).trans hf
  have hkey : (Is.foldl refStep s.block).key = s.block.key := Block.key_of_caller hcaller
  have habsent := (hsame hq).trans hx
  refine ⟨_, run_of_script hscript, hfsm, htimer, habsent, fun ht I rest' hrest hr hno => ?_⟩
  obtain ⟨hdone, hkeeps'⟩ := refStep_of_expired hr hfsm (by rw [hkey]; exact habsent) ht
  obtain ⟨_, hsame'⟩ := hkeeps' s.block.key
  have hscript' : s.script = (Is ++ [I]) ++ rest' := by rw [hscript, hrest, List.append_cons]
  have hrun := run_of_script hscript'
  rw [List.length_append, List.length_singleton, List.foldl_append] at hrun
  exact ⟨_, hrun, congrArg CallerRegs.fsm hdone, congrArg CallerRegs.status hdone, congrArg CallerRegs.rvalue hdone,
    (hsame' ⟨hno, trivial⟩).trans habsent⟩

/-! ### The awaited Reply (R142, R143) -/

/-- A vector that completes a message: it is the last byte of a frame, at an edge without reset. -/
theorem Block.completed_eq_some {b : Block} {I : Inputs} {m : Msg} (h : b.completed I = some m) :
    I.rst = false ∧ I.rx_valid = true ∧ I.rx_last = true ∧ b.rxMessage I.rx_data = m := by
  unfold Block.completed at h
  split at h
  · next hc =>
    obtain ⟨hr, hv, hl⟩ : I.rst = false ∧ I.rx_valid = true ∧ I.rx_last = true := by
      simpa [Inputs.completesFrame] using hc
    exact ⟨hr, hv, hl, Option.some.inj h⟩
  · cases h

/-- One byte is no Reply (R75). -/
theorem Block.holds.not_repliesFor {b : Block} (h : b.holds []) (I : Inputs) (k : Key) : ¬ b.repliesFor I k := by
  rintro ⟨x, hx⟩
  obtain ⟨_, _, _, hm⟩ := Block.completed_eq_some hx
  rw [Block.rxMessage, h.rxBytes, h.rxCount I.rx_data] at hm
  rcases decodeCapped_take ([] ++ [I.rx_data]) with he | ⟨⟨raw, he⟩, _⟩
  · exact absurd (length_of_decode_reply (he ▸ hm)) (by simp [Wire.replyLen])
  · cases he.symm.trans hm

/-- The edge that completes a message: the caller path's edge, then the message received. -/
theorem refStep_of_completed {b : Block} {I : Inputs} {m : Msg} (h : b.completed I = some m) :
    refStep b I = (b.callerEdge I).receive m := by
  obtain ⟨hr, hv, hl, hm⟩ := Block.completed_eq_some h
  rw [refStep_of_running hr, Block.listenerEdge, hv, hl, Block.rxMessage_congr (b.callerEdge_listener I), hm]
  rfl

theorem Block.receive_holds_nil (b : Block) (m : Msg) : (b.receive m).holds [] :=
  Block.holds_nil (congrArg ListenerRegs.rx_buf (b.receive_listener m))
    (congrArg ListenerRegs.rx_len (b.receive_listener m))

/-- A wait that finds its entry pops it and completes (R142, R143). -/
theorem refStep_of_found {b : Block} {J : Inputs} {x : Value} (hr : J.rst = false) (hf : b.fsm = .wait)
    (hw : b.wake = true) (hx : tblRead b.table b.key = some x) (hno : ¬ b.repliesFor J b.key) :
    (refStep b J).caller = { b.caller with fsm := .resp, status := foundStatus b.op x b.v, rvalue := x } ∧
      tblRead (refStep b J).table b.key = none := by
  have hedge : b.callerEdge J = (b.discard b.key).complete (foundStatus b.op x b.v) x := by
    rw [Block.callerEdge_of_wait J hf]
    exact Block.waitEdge_of_found _ (Block.found_eq_some.mpr ⟨hw, hx⟩)
  exact ⟨by rw [refStep_caller hr, hedge, Block.complete_caller, Block.discard_caller],
    refStep_absent_of_clear hr (by rw [hedge]; rfl) hno⟩

/-- Settles O43: the first edge goes on waiting and inserts the Reply, the second finds it; a one-byte frame at the
second is no Reply. -/
theorem awaitedReplyEndsTheWait : Obligations.AwaitedReplyEndsTheWait := by
  intro s I J rest x hf habsent ht hscript hI hJ hcompleted
  have hfirst := refStep_of_completed hcompleted
  rw [Block.callerEdge_of_waiting I hf habsent ht] at hfirst
  have hnil : (refStep s.block I).holds [] := hfirst ▸ Block.receive_holds_nil _ _
  have hcaller : (refStep s.block I).caller =
      { s.block.caller with timer := if I.tick then s.block.timer - 1 else s.block.timer } := by
    rw [hfirst, Block.receive_caller]
    rfl
  have hwake : (refStep s.block I).wake = true := by rw [hfirst, Block.receive_reply_wake]
  have hentry : tblRead (refStep s.block I).table s.block.key = some x := by
    rw [hfirst, Block.receive_reply_table]
    exact tblRead_tblWrite_same _ _ _
  have hkey : (refStep s.block I).key = s.block.key := Block.key_of_caller hcaller
  have hop : (refStep s.block I).op = s.block.op := congrArg CallerRegs.op hcaller
  have hv : (refStep s.block I).v = s.block.v := congrArg CallerRegs.v hcaller
  obtain ⟨hdone, hgone⟩ := refStep_of_found hJ ((congrArg CallerRegs.fsm hcaller).trans hf) hwake
    (by rw [hkey]; exact hentry) (hnil.not_repliesFor J _)
  rw [hkey] at hgone
  rw [hop, hv] at hdone
  have hstatus := congrArg CallerRegs.status hdone
  refine ⟨_, run_of_script (Is := [I, J]) hscript, congrArg CallerRegs.fsm hdone, congrArg CallerRegs.rvalue hdone,
    hgone, fun ho => hstatus.trans ?_, fun ho hxv => hstatus.trans ?_, fun ho hxv => hstatus.trans ?_⟩
  · simp [foundStatus, ho]
  · simp [foundStatus, ho, hxv]
  · simp [foundStatus, ho, hxv]

end Sys2Proof.Machine
end

section
/-! Frames on the TX port: a command runs from its acceptance over the bytes of its frames to RESP or to WAIT (R131 to
R136, R204), and under any stall the port moves a frame's own bytes in order (R62, R86, R135, R200). -/

namespace Sys2Proof.Machine

/-! ### One byte (R135) -/

/-- A byte that is not the last moves on. -/
theorem Block.callerEdge_of_byte {b : Block} {I : Inputs} (hf : b.fsm = .send) (hv : I.tx_ready = true)
    (hi : b.idx.toNat ≠ frameLen b.frame - 1) : b.callerEdge I = b.nextByte := by
  have hlast : b.atLastByte = false := by simp [Block.atLastByte, hi]
  simp [Block.callerEdge_of_send I hf, Block.sendEdge, hv, hlast]

/-- The last byte ends its frame. -/
theorem Block.callerEdge_of_last {b : Block} {I : Inputs} (hf : b.fsm = .send) (hv : I.tx_ready = true)
    (hi : b.idx.toNat = frameLen b.frame - 1) : b.callerEdge I = b.frameSent := by
  simp [Block.callerEdge_of_send I hf, Block.sendEdge, hv, b.atLastByte_iff.mpr hi]

/-- Without `tx_ready` nothing moves. -/
theorem Block.callerEdge_of_stall {b : Block} {I : Inputs} (hf : b.fsm = .send) (hv : I.tx_ready = false) :
    b.callerEdge I = b := by
  simp [Block.callerEdge_of_send I hf, Block.sendEdge, hv]

theorem Block.nextByte_idx_toNat {b : Block} (hi : b.idx.toNat + 1 < frameLen b.frame) :
    b.nextByte.idx.toNat = b.idx.toNat + 1 := by
  have := frameLen_le b.frame
  rw [Block.nextByte_idx]
  bv_omega

/-! ### A frame taken at once (R136) -/

/-- Bytes short of the last of their frame: `idx` counts them and nothing else of the caller path changes. -/
theorem foldl_bytes {b : Block} {Is : List Inputs} (hf : b.fsm = .send) (hu : unreset Is)
    (hr : ∀ I ∈ Is, I.tx_ready = true) (hi : b.idx.toNat + Is.length < frameLen b.frame) :
    (Is.foldl refStep b).caller = { b.caller with idx := (Is.foldl refStep b).idx } ∧
      (Is.foldl refStep b).idx.toNat = b.idx.toNat + Is.length ∧ keepsEntries b Is := by
  induction Is generalizing b with
  | nil => exact ⟨rfl, rfl, keepsEntries_nil b⟩
  | cons I Is ih =>
    obtain ⟨hrst, hu⟩ := unreset_cons.mp hu
    obtain ⟨hv, hr⟩ := List.forall_mem_cons.mp hr
    rw [List.length_cons] at hi
    have hedge := Block.callerEdge_of_byte hf hv (by omega)
    have hcaller : (refStep b I).caller = b.nextByte.caller := by rw [refStep_caller hrst, hedge]
    have hidx : (refStep b I).idx.toNat = b.idx.toNat + 1 :=
      (congrArg (fun r => r.idx.toNat) hcaller).trans (Block.nextByte_idx_toNat (by omega))
    have hframe : (refStep b I).frame = b.frame := congrArg CallerRegs.frame hcaller
    obtain ⟨hcaller', hidx', hkeeps⟩ :=
      ih ((congrArg CallerRegs.fsm hcaller).trans hf) hu hr (by rw [hidx, hframe]; omega)
    rw [List.foldl_cons, List.length_cons]
    exact ⟨by rw [hcaller', hcaller, Block.nextByte_caller], by omega,
      keepsEntries_cons (keepsEntries_of_table hrst (by rw [hedge, Block.nextByte_table])) hkeeps⟩

/-- The vectors take a whole frame at once: as many as it has bytes, none with reset, each with `tx_ready`. -/
structure TakesFrame (b : Block) (Is : List Inputs) : Prop where
  fsm : b.fsm = .send
  idx : b.idx = 0
  unreset : unreset Is
  ready : ∀ I ∈ Is, I.tx_ready = true
  length : Is.length = frameLen b.frame

/-- A frame taken at once: its bytes but the last, and the edge that sends it. -/
theorem TakesFrame.split {b : Block} {Is : List Inputs} (h : TakesFrame b Is) :
    ∃ Js I c, Is = Js ++ [I] ∧ I.rst = false ∧ Js.foldl refStep b = c ∧
      c.caller = { b.caller with idx := c.idx } ∧ keepsEntries b Js ∧ c.callerEdge I = c.frameSent := by
  have hlen := h.length
  have hpos := frameLen_pos b.frame
  have hne : Is ≠ [] := by
    rintro rfl
    simp only [List.length_nil] at hlen
    omega
  obtain ⟨Js, I, rfl⟩ := (List.eq_nil_or_concat' Is).resolve_left hne
  obtain ⟨hu, hrst⟩ := unreset_append.mp h.unreset
  obtain ⟨hr, hv⟩ := List.forall_mem_append.mp h.ready
  have hzero : b.idx.toNat = 0 := by simp [h.idx]
  rw [List.length_append, List.length_singleton] at hlen
  obtain ⟨hcaller, hidx, hkeeps⟩ := foldl_bytes h.fsm hu hr (by omega)
  have hframe : (Js.foldl refStep b).frame = b.frame := congrArg CallerRegs.frame hcaller
  refine ⟨Js, I, _, rfl, hrst I (List.mem_singleton_self I), rfl, hcaller, hkeeps, ?_⟩
  exact Block.callerEdge_of_last ((congrArg CallerRegs.fsm hcaller).trans h.fsm) (hv I (List.mem_singleton_self I))
    (by rw [hidx, hframe]; omega)

/-- A frame whose command asks for no reply completes it with SENT (R131, R132, R136). -/
theorem TakesFrame.fire {b : Block} {Is : List Inputs} (h : TakesFrame b Is)
    (hs : b.frame = .ka ∨ (b.frame = .chg ∧ b.op = .change)) :
    (Is.foldl refStep b).caller = { b.caller with
      idx := (Is.foldl refStep b).idx, fsm := .resp, status := .sent, rvalue := 0 } ∧ keepsEntries b Is := by
  obtain ⟨Js, I, c, rfl, hr, hc, hcaller, hkeeps, hlast⟩ := h.split
  have hframe : c.frame = b.frame := congrArg CallerRegs.frame hcaller
  have hop : c.op = b.op := congrArg CallerRegs.op hcaller
  have hsent : c.callerEdge I = c.complete .sent 0 := by
    rw [hlast, Block.frameSent, hframe, hop]
    rcases hs with hs | ⟨hs, ho⟩
    · rw [hs]
    · rw [hs]
      exact if_pos ho
  have hdone : (refStep c I).caller = { c.caller with fsm := .resp, status := .sent, rvalue := 0 } := by
    rw [refStep_caller hr, hsent, Block.complete_caller]
  have hidx : (refStep c I).idx = c.idx := congrArg CallerRegs.idx hdone
  refine ⟨?_, keepsEntries_append hkeeps ?_⟩
  · rw [List.foldl_append, hc, List.foldl_cons, List.foldl_nil, hdone, hidx, hcaller]
  · rw [hc]
    exact keepsEntries_of_table hr (by rw [hsent, Block.complete_table])

/-- The QueryParameter frame goes on to WAIT with the whole timeout (R133, R136). -/
theorem TakesFrame.await {b : Block} {Is : List Inputs} (h : TakesFrame b Is) (hs : b.frame = .qry) :
    (Is.foldl refStep b).caller = { b.caller with
      idx := (Is.foldl refStep b).idx, fsm := .wait, timer := b.t } ∧ keepsEntries b Is := by
  obtain ⟨Js, I, c, rfl, hr, hc, hcaller, hkeeps, hlast⟩ := h.split
  have hframe : c.frame = .qry := (congrArg CallerRegs.frame hcaller).trans hs
  have ht : c.t = b.t := congrArg CallerRegs.t hcaller
  have hwait : c.callerEdge I = c.enterWait := by rw [hlast, Block.frameSent, hframe]
  have hdone : (refStep c I).caller = { c.caller with fsm := .wait, timer := c.t } := by
    rw [refStep_caller hr, hwait, Block.enterWait_caller]
  have hidx : (refStep c I).idx = c.idx := congrArg CallerRegs.idx hdone
  refine ⟨?_, keepsEntries_append hkeeps ?_⟩
  · rw [List.foldl_append, hc, List.foldl_cons, List.foldl_nil, hdone, hidx, ht, hcaller]
  · rw [hc]
    exact keepsEntries_of_table hr (by rw [hwait, Block.enterWait_table])

/-- SET_CONFIRM's ChangeParameter frame goes on to the query with its key cleared (R134, R136, R137). -/
theorem TakesFrame.confirm {b : Block} {Is : List Inputs} (h : TakesFrame b Is) (hs : b.frame = .chg)
    (ho : b.op ≠ .change) :
    (Is.foldl refStep b).caller = { b.caller with frame := .qry, idx := 0 } ∧
      (quietFor b.key b Is → tblRead (Is.foldl refStep b).table b.key = none) := by
  obtain ⟨Js, I, c, rfl, hr, hc, hcaller, _, hlast⟩ := h.split
  have hframe : c.frame = .chg := (congrArg CallerRegs.frame hcaller).trans hs
  have hop : c.op ≠ .change := fun e => ho ((congrArg CallerRegs.op hcaller).symm.trans e)
  have hkey : c.key = b.key := Block.key_of_caller hcaller
  have hquery : c.callerEdge I = c.startQuery.discard c.key := by
    rw [hlast, Block.frameSent, hframe]
    exact if_neg hop
  rw [List.foldl_append, hc, List.foldl_cons, List.foldl_nil, quietFor_append, hc]
  refine ⟨?_, fun ⟨_, hno, _⟩ => ?_⟩
  · rw [refStep_caller hr, hquery, Block.discard_caller, Block.startQuery_caller, hcaller]
  · exact refStep_absent_of_clear hr (by rw [hquery, hkey]; rfl) hno

/-! ### Commands from their acceptance (R130 to R134, R204) -/

theorem ready_of_readiesIn {Is : List Inputs} (h : readiesIn Is = Is.length) : ∀ I ∈ Is, I.tx_ready = true :=
  List.countP_eq_length.mp h

/-- An accepted command starts its first frame (R130). -/
theorem refStep_command_caller {b : Block} {I : Inputs} (hr : I.rst = false) (hf : b.fsm = .idle)
    (hv : I.cmd_valid = true) :
    (refStep b I).caller = { b.caller with
      op := opOfBits I.cmd_op, a := I.cmd_addr, c := I.cmd_channel, v := I.cmd_value, t := I.cmd_timeout, idx := 0,
      fsm := .send, frame := firstFrame (opOfBits I.cmd_op) } := by
  rw [refStep_caller hr, Block.callerEdge_of_command hf hv, Block.command_caller]
  rfl

/-- The vectors after an acceptance take the command's first frame at once. -/
theorem takesFrame_of_command {b : Block} {I : Inputs} {Is : List Inputs} (hr : I.rst = false)
    (hf : b.fsm = .idle) (hv : I.cmd_valid = true) (hu : unreset Is) (hready : ∀ I ∈ Is, I.tx_ready = true)
    (hlen : Is.length = frameLen (firstFrame (opOfBits I.cmd_op))) : TakesFrame (refStep b I) Is := by
  have hcaller := refStep_command_caller hr hf hv
  exact ⟨congrArg CallerRegs.fsm hcaller, congrArg CallerRegs.idx hcaller, hu, hready,
    hlen.trans (congrArg (fun r => frameLen r.frame) hcaller).symm⟩

/-- Settles O44: acceptance clears nothing, and the one frame of the command completes it. -/
theorem fireAndForgetCommandsComplete : Obligations.FireAndForgetCommandsComplete := by
  intro s I Is rest hf hscript hr hv hu hreadies hop
  have hfire : opOfBits I.cmd_op ≠ .query ∧ Is.length = frameLen (firstFrame (opOfBits I.cmd_op)) ∧
      (firstFrame (opOfBits I.cmd_op) = .ka ∨
        (firstFrame (opOfBits I.cmd_op) = .chg ∧ opOfBits I.cmd_op = .change)) := by
    rcases hop with ⟨ho, hlen⟩ | ⟨ho, hlen⟩
    · rw [ho, hlen]
      decide
    · rw [ho, hlen]
      decide
  obtain ⟨hquery, hlen, hframe⟩ := hfire
  have hcaller := refStep_command_caller hr hf hv
  have htakes := takesFrame_of_command hr hf hv hu (ready_of_readiesIn hreadies) hlen
  have hframe0 : (refStep s.block I).frame = firstFrame (opOfBits I.cmd_op) := congrArg CallerRegs.frame hcaller
  have hop0 : (refStep s.block I).op = opOfBits I.cmd_op := congrArg CallerRegs.op hcaller
  rw [← hframe0, ← hop0] at hframe
  obtain ⟨hdone, hkeeps⟩ := htakes.fire hframe
  have haccept : keepsEntries s.block [I] := by
    obtain ⟨htable, _⟩ := s.block.command_other_shared (w := I.commandWord) hquery
    exact keepsEntries_of_table hr (by rw [Block.callerEdge_of_command hf hv, htable])
  have hrun := run_of_script (Is := I :: Is) hscript
  rw [List.length_cons, Nat.add_comm] at hrun
  refine ⟨_, hrun, congrArg CallerRegs.fsm hdone, congrArg CallerRegs.status hdone, congrArg CallerRegs.rvalue hdone,
    (congrArg CallerRegs.op hdone).trans hop0, fun k x hx => ?_⟩
  obtain ⟨hstay, _⟩ := keepsEntries_cons haccept hkeeps k
  exact hstay (by simp [hx])

/-- A QUERY's key is absent from its acceptance on where no Reply fills it (R137). -/
theorem refStep_query_absent {b : Block} {I : Inputs} (hr : I.rst = false) (hf : b.fsm = .idle)
    (hv : I.cmd_valid = true) (ho : opOfBits I.cmd_op = .query)
    (hno : ¬ b.repliesFor I (I.cmd_channel, I.cmd_addr)) :
    tblRead (refStep b I).table (I.cmd_channel, I.cmd_addr) = none := by
  obtain ⟨htable, _⟩ := b.command_query_shared (w := I.commandWord) ho
  exact refStep_absent_of_clear hr (by rw [Block.callerEdge_of_command hf hv, htable]; rfl) hno

/-- A command's caller elements where its QueryParameter frame starts: QUERY's from its acceptance, SET_CONFIRM's after
its ChangeParameter frame (R133, R136). -/
def CallerRegs.startOfQuery (r : CallerRegs) (I : Inputs) : CallerRegs :=
  { r with
    op := opOfBits I.cmd_op, a := I.cmd_addr, c := I.cmd_channel, v := I.cmd_value, t := I.cmd_timeout, idx := 0,
    fsm := .send, frame := .qry }

/-- The command is in WAIT for its own key, with its value, its whole timeout on the timer (R136). -/
structure AwaitsCommand (b : Block) (I : Inputs) : Prop where
  fsm : b.fsm = .wait
  op : b.op = opOfBits I.cmd_op
  key : b.key = (I.cmd_channel, I.cmd_addr)
  v : b.v = I.cmd_value
  timer : b.timer = I.cmd_timeout

/-- From the start of its QueryParameter frame, taken at once, a command reaches WAIT. -/
theorem awaitsCommand_of_query_frame {b : Block} {I : Inputs} {Is : List Inputs} {r : CallerRegs}
    (hb : b.caller = r.startOfQuery I) (hu : unreset Is) (hready : ∀ J ∈ Is, J.tx_ready = true)
    (hlen : Is.length = 15) : AwaitsCommand (Is.foldl refStep b) I ∧ keepsEntries b Is := by
  have hframe : b.frame = .qry := congrArg CallerRegs.frame hb
  have htakes : TakesFrame b Is :=
    ⟨congrArg CallerRegs.fsm hb, congrArg CallerRegs.idx hb, hu, hready, by rw [hlen, hframe]; rfl⟩
  have ht : b.t = I.cmd_timeout := congrArg CallerRegs.t hb
  obtain ⟨hcaller, hkeeps⟩ := htakes.await hframe
  rw [ht, hb] at hcaller
  exact ⟨⟨congrArg CallerRegs.fsm hcaller, congrArg CallerRegs.op hcaller, Block.key_of_caller hcaller,
    congrArg CallerRegs.v hcaller, congrArg CallerRegs.timer hcaller⟩, hkeeps⟩

/-- QUERY from its acceptance to WAIT. -/
theorem awaitsCommand_of_query {b : Block} {I : Inputs} {Is : List Inputs} (hr : I.rst = false) (hf : b.fsm = .idle)
    (hv : I.cmd_valid = true) (ho : opOfBits I.cmd_op = .query) (hu : unreset Is)
    (hready : ∀ J ∈ Is, J.tx_ready = true) (hlen : Is.length = 15) :
    AwaitsCommand ((I :: Is).foldl refStep b) I ∧
      (quietFor (I.cmd_channel, I.cmd_addr) b (I :: Is) →
        tblRead ((I :: Is).foldl refStep b).table (I.cmd_channel, I.cmd_addr) = none) := by
  have hcaller := refStep_command_caller hr hf hv
  have hstart : (refStep b I).caller = b.caller.startOfQuery I := by
    rw [hcaller, CallerRegs.startOfQuery, ho]
    rfl
  obtain ⟨hwait, hkeeps⟩ := awaitsCommand_of_query_frame hstart hu hready hlen
  obtain ⟨_, hsame⟩ := hkeeps (I.cmd_channel, I.cmd_addr)
  exact ⟨hwait, fun ⟨hno, hq⟩ => (hsame hq).trans (refStep_query_absent hr hf hv ho hno)⟩

/-- SET_CONFIRM from its acceptance to WAIT: its ChangeParameter frame, then its QueryParameter frame. -/
theorem awaitsCommand_of_setConfirm {b : Block} {I : Inputs} {Is : List Inputs} (hr : I.rst = false)
    (hf : b.fsm = .idle) (hv : I.cmd_valid = true) (ho : opOfBits I.cmd_op = .setConfirm) (hu : unreset Is)
    (hready : ∀ J ∈ Is, J.tx_ready = true) (hlen : Is.length = 34) :
    AwaitsCommand ((I :: Is).foldl refStep b) I ∧
      (quietFor (I.cmd_channel, I.cmd_addr) b (I :: Is) →
        tblRead ((I :: Is).foldl refStep b).table (I.cmd_channel, I.cmd_addr) = none) := by
  have hcaller := refStep_command_caller hr hf hv
  obtain ⟨Js, Ks, rfl, hJs⟩ : ∃ Js Ks, Is = Js ++ Ks ∧ Js.length = 19 :=
    ⟨Is.take 19, Is.drop 19, (List.take_append_drop 19 Is).symm, by rw [List.length_take, hlen]; rfl⟩
  obtain ⟨huJ, huK⟩ := unreset_append.mp hu
  obtain ⟨hreadyJ, hreadyK⟩ := List.forall_mem_append.mp hready
  have hKs : Ks.length = 15 := by
    rw [List.length_append] at hlen
    omega
  have htakes := takesFrame_of_command hr hf hv huJ hreadyJ (by rw [hJs, ho]; rfl)
  have hframe : (refStep b I).frame = .chg := (congrArg CallerRegs.frame hcaller).trans (by rw [ho]; rfl)
  have hop : (refStep b I).op ≠ .change := by
    have hop0 : (refStep b I).op = opOfBits I.cmd_op := congrArg CallerRegs.op hcaller
    rw [hop0, ho]
    decide
  have hkey : (refStep b I).key = (I.cmd_channel, I.cmd_addr) := Block.key_of_caller hcaller
  obtain ⟨hstart, habsent⟩ := htakes.confirm hframe hop
  rw [hcaller] at hstart
  rw [hkey] at habsent
  obtain ⟨hwait, hkeeps⟩ := awaitsCommand_of_query_frame (r := b.caller) hstart huK hreadyK hKs
  obtain ⟨_, hsame⟩ := hkeeps (I.cmd_channel, I.cmd_addr)
  rw [List.foldl_cons, List.foldl_append]
  refine ⟨hwait, fun ⟨_, hq⟩ => ?_⟩
  obtain ⟨hqJ, hqK⟩ := quietFor_append.mp hq
  exact (hsame hqK).trans (habsent hqJ)

/-- Settles O45: either command reaches WAIT by its QueryParameter frame, its key cleared before that frame starts. -/
theorem waitingCommandsReachWait : Obligations.WaitingCommandsReachWait := by
  intro s I Is rest hf hscript hr hv hu hreadies hop
  have hready := ready_of_readiesIn hreadies
  have hrun := run_of_script (Is := I :: Is) hscript
  rw [List.length_cons, Nat.add_comm] at hrun
  obtain ⟨hwait, habsent⟩ : AwaitsCommand ((I :: Is).foldl refStep s.block) I ∧
      (quietFor (I.cmd_channel, I.cmd_addr) s.block (I :: Is) →
        tblRead ((I :: Is).foldl refStep s.block).table (I.cmd_channel, I.cmd_addr) = none) := by
    rcases hop with ⟨ho, hlen⟩ | ⟨ho, hlen⟩
    · exact awaitsCommand_of_query hr hf hv (by rw [ho]; rfl) hu hready hlen
    · exact awaitsCommand_of_setConfirm hr hf hv (by rw [ho]; rfl) hu hready hlen
  exact ⟨_, hrun, hwait.fsm, hwait.op, hwait.key, hwait.v, hwait.timer, habsent⟩

/-! ### The bytes on the TX port under any stall (R62, R86, R200) -/

/-- The frame on the TX port, byte by byte (`40_codec.md` R116). -/
def Block.outgoing (b : Block) : Frame := frameBytes b.frame b.a b.c b.v

/-- Moving along a frame leaves it the frame on the port. -/
theorem Block.outgoing_eq {b b' : Block} {i : BitVec 5} (h : b'.caller = { b.caller with idx := i }) :
    b'.outgoing = b.outgoing := by
  have hframe : b'.frame = b.frame := congrArg CallerRegs.frame h
  have ha : b'.a = b.a := congrArg CallerRegs.a h
  have hc : b'.c = b.c := congrArg CallerRegs.c h
  have hv : b'.v = b.v := congrArg CallerRegs.v h
  rw [Block.outgoing, Block.outgoing, hframe, ha, hc, hv]

/-- A marked frame from byte `i` on: that byte, marked where it is the last, and the rest (R86). -/
theorem markedFrame_drop {f : Frame} {i : Nat} (hi : i < f.length) :
    (markedFrame f).drop i = (byteAt f i, i == f.length - 1) :: (markedFrame f).drop (i + 1) := by
  induction f generalizing i with
  | nil => simp at hi
  | cons data f ih =>
    cases i with
    | zero => cases f <;> simp [markedFrame, byteAt]
    | succ i =>
      rw [List.length_cons] at hi
      have hlt : i < f.length := by omega
      have hmark : (i + 1 == (data :: f).length - 1) = (i == f.length - 1) := by
        rw [List.length_cons, Bool.eq_iff_iff, beq_iff_eq, beq_iff_eq]
        omega
      rw [hmark, markedFrame, List.drop_succ_cons, ih hlt]
      rfl

/-- The byte that a vector with `tx_ready` moves in SEND (R135, R136). -/
theorem Block.txTransfer_of_ready {b : Block} {I : Inputs} (hr : I.rst = false) (hf : b.fsm = .send)
    (hv : I.tx_ready = true) (hi : b.idx.toNat < frameLen b.frame) :
    b.txTransfer I = some (byteAt b.outgoing b.idx.toNat, b.idx.toNat == b.outgoing.length - 1) := by
  rw [Block.txTransfer_of_send hr hf, hv, Block.tx_data_of_send hf hi, Block.outgoing, frameBytes_length]
  rfl

theorem Block.txTransfer_of_not_ready (b : Block) {I : Inputs} (hv : I.tx_ready = false) : b.txTransfer I = none := by
  simp [Block.txTransfer, hv]

theorem readiesIn_cons (I : Inputs) (Is : List Inputs) :
    readiesIn (I :: Is) = readiesIn Is + if I.tx_ready then 1 else 0 := by
  simp [readiesIn, List.countP_cons]

/-- The machine after the first vector of its script. -/
theorem exists_step_of_script {s : State} {I : Inputs} {rest : List Inputs} (hs : s.script = I :: rest) :
    ∃ t, step s = .next t ∧ t.block = refStep s.block I ∧ t.script = rest := by
  refine ⟨_, stepRefinesTheSpecFunction s, ?_, ?_⟩
  · rw [State.input_of_script hs]
  · rw [hs, List.tail_cons]

/-- Where `tx_ready` is never given no byte moves, in any state of the caller path (R200). -/
theorem txTrace_of_stalled {s : State} {Is rest : List Inputs} (hs : s.script = Is ++ rest)
    (h : readiesIn Is = 0) : txTrace Is.length s = [] := by
  induction Is generalizing s with
  | nil => rfl
  | cons I Is ih =>
    rw [readiesIn_cons] at h
    have hv : I.tx_ready = false := by
      cases hv : I.tx_ready with
      | false => rfl
      | true => simp [hv] at h
    obtain ⟨t, hstep, _, hscript⟩ := exists_step_of_script hs
    rw [List.length_cons, txTrace_next _ hstep, State.input_of_script hs, Block.txTransfer_of_not_ready _ hv,
      ih hscript (by omega)]
    rfl

/-- From byte `idx` of a frame on, with `tx_ready` given no more often than bytes are left: the bytes from there, as
many as were asked for. -/
theorem txTrace_of_send {s : State} {Is rest : List Inputs} (hs : s.script = Is ++ rest) (hf : s.block.fsm = .send)
    (hu : unreset Is) (hi : s.block.idx.toNat < frameLen s.block.frame)
    (hleft : s.block.idx.toNat + readiesIn Is ≤ frameLen s.block.frame) :
    txTrace Is.length s = ((markedFrame s.block.outgoing).drop s.block.idx.toNat).take (readiesIn Is) := by
  induction Is generalizing s with
  | nil => simp [readiesIn]
  | cons I Is ih =>
    obtain ⟨hr, hu⟩ := unreset_cons.mp hu
    obtain ⟨t, hstep, hblock, hscript⟩ := exists_step_of_script hs
    rw [List.length_cons, txTrace_next _ hstep, State.input_of_script hs]
    rw [readiesIn_cons] at hleft ⊢
    cases hv : I.tx_ready with
    | false =>
      have hcaller : t.block.caller = s.block.caller := by
        rw [hblock, refStep_caller hr, Block.callerEdge_of_stall hf hv]
      have hidx : t.block.idx = s.block.idx := congrArg CallerRegs.idx hcaller
      have hframe : t.block.frame = s.block.frame := congrArg CallerRegs.frame hcaller
      have hrest := ih hscript ((congrArg CallerRegs.fsm hcaller).trans hf) hu
      rw [hidx, hframe, Block.outgoing_eq (b := s.block) hcaller] at hrest
      rw [Block.txTransfer_of_not_ready _ hv, hrest hi (by simpa [hv] using hleft)]
      rfl
    | true =>
      have hlen : s.block.outgoing.length = frameLen s.block.frame := frameBytes_length _ _ _ _
      simp only [hv, if_true] at hleft
      rw [Block.txTransfer_of_ready hr hf hv hi, if_pos rfl, markedFrame_drop (hlen.symm ▸ hi), List.take_succ_cons]
      refine congrArg _ ?_
      by_cases hlast : s.block.idx.toNat = frameLen s.block.frame - 1
      · have hnone : readiesIn Is = 0 := by omega
        rw [hnone, List.take_zero]
        exact txTrace_of_stalled hscript hnone
      · have hcaller : t.block.caller = s.block.nextByte.caller := by
          rw [hblock, refStep_caller hr, Block.callerEdge_of_byte hf hv hlast]
        have hidx : t.block.idx.toNat = s.block.idx.toNat + 1 :=
          (congrArg (fun r => r.idx.toNat) hcaller).trans (Block.nextByte_idx_toNat (by omega))
        have hframe : t.block.frame = s.block.frame := congrArg CallerRegs.frame hcaller
        have hrest := ih hscript ((congrArg CallerRegs.fsm hcaller).trans hf) hu
        rw [hidx, hframe, Block.outgoing_eq (b := s.block) hcaller] at hrest
        exact hrest (by omega) (by omega)

/-- Settles O46: the run from byte 0 of the frame. -/
theorem transmissionIsTheFrameUnderAnyStall : Obligations.TransmissionIsTheFrameUnderAnyStall := by
  intro s Is rest hf hidx hscript hu hreadies
  have hzero : s.block.idx.toNat = 0 := by simp [hidx]
  have htrace := txTrace_of_send hscript hf hu (hzero ▸ frameLen_pos _) (by omega)
  rw [hzero, List.drop_zero] at htrace
  exact ⟨⟨_, run_of_script hscript⟩, htrace⟩

end Sys2Proof.Machine
end
